-- ==== Sys2Proof/Word.lean ====
section
/-! DEFINITION. The unit of the serial interfaces: the byte of an office-link frame. Everything the
manual treats as a number (counters, prices, seconds, tags) is a `Nat` with its range kept by the
operation that writes it. -/

namespace Sys2Proof

/-- One byte of an office-link frame (R183, R191). -/
abbrev Byte := BitVec 8

end Sys2Proof
end

