-- ==== Sys2Proof/Config.lean ====
section
/-! DEFINITION. The fixed numbers of the part ("fixed numbers" of the opening chapter and the timer
tables of the chapters), and the one value the manual leaves open. -/

namespace Sys2Proof.Config

/-- Capacity 0 to 384 (R7, R8). -/
def maxCapacity : Nat := 384
/-- Head limit 0 to 3,072 (R7, R8). -/
def maxHeadLimit : Nat := 3072
/-- Stalls 1 to 384 of a lot (R5). -/
def maxStall : Nat := 384
/-- Tags 1 to 9,999 (R1). -/
def maxTag : Nat := 9999
/-- Tab 0 to 999,999 cents (R21). -/
def maxTab : Nat := 999999
/-- The unsettled-money counter stops at 4,294,967,295 (R7). -/
def maxUnsettled : Nat := 4294967295
/-- The admitted, exits, untagged-exit and dropped-frames counters stop at 65,535 (R7, R103). -/
def maxCount16 : Nat := 65535
/-- Order total limit 65,535 cents (R147). -/
def maxTotal : Nat := 65535
/-- Order numbers 1 to 999 (R145). -/
def maxOrderNumber : Nat := 999
/-- 512 order slots (R145). -/
def orderSlots : Nat := 512
/-- Lines of an order: at most 8 (R151). -/
def maxLines : Nat := 8
/-- Items 1 to 127 (R148). -/
def maxItem : Nat := 127
/-- Price 0 to 9,999 cents (R148). -/
def maxPrice : Nat := 9999
/-- The placement sequence steps from 4,294,967,295 to 1 (R190). -/
def maxPlacement : Nat := 4294967295
/-- The site clock runs 0 to 86,399 (R190). -/
def dayLength : Nat := 86400
/-- Transit limit 120 to 3,600 s, default 900 (R17). -/
def transitMin : Nat := 120
/-- See `transitMin`. -/
def transitDefault : Nat := 900
/-- See `transitMin`. -/
def transitMax : Nat := 3600
/-- Vacate grace 20 to 300 s, default 90 (R17). -/
def graceMin : Nat := 20
/-- See `graceMin`. -/
def graceDefault : Nat := 90
/-- See `graceMin`. -/
def graceMax : Nat := 300
/-- Draft limit 300 s (R151). -/
def draftLimit : Nat := 300
/-- Aging period 60 to 900 s, default 240 (R175). -/
def agingMin : Nat := 60
/-- See `agingMin`. -/
def agingDefault : Nat := 240
/-- See `agingMin`. -/
def agingMax : Nat := 900
/-- Motor lead 5 to 30 s, default 12 (R82). -/
def motorLeadMin : Nat := 5
/-- See `motorLeadMin`. -/
def motorLeadDefault : Nat := 12
/-- See `motorLeadMin`. -/
def motorLeadMax : Nat := 30
/-- Intermission duration 60 to 1,800 s (R66). -/
def intermissionMin : Nat := 60
/-- See `intermissionMin`. -/
def intermissionMax : Nat := 1800
/-- Announcement duration 5 to 600 s (R138). -/
def announceMin : Nat := 5
/-- See `announceMin`. -/
def announceMax : Nat := 600
/-- Booth line acknowledgement limit 250 ms (R110). -/
def ackLimit : Nat := 250
/-- The waiting queue of a booth line holds 0 to 7 commands (R103). -/
def waitingQueue : Nat := 7
/-- Drive codes 0 to 4,095 (R126). -/
def maxDrive : Nat := 4095
/-- A programme has at most 24 entries (R65). -/
def maxSegments : Nat := 24
/-- Reel labels 1 to 999 (R66). -/
def maxLabel : Nat := 999
/-- A kitchen station's stack holds at most 3 orders (R169). -/
def stackDepth : Nat := 3
/-- Base floor 0 to 6 (R170). -/
def maxBaseFloor : Nat := 6
/-- Stall posts of a loop have addresses 1 to 192 (R44). -/
def postsPerLoop : Nat := 192
/-- Units of the service loop have addresses 1 to 11 (R44). -/
def serviceUnits : Nat := 11
/-- Handhelds 1 to 16 (R62). -/
def maxHandheld : Nat := 16

/-- FREE VALUE (log entry 2). "Central layouts" of the office link give the bytes of the pass, stall,
order and notice read-outs; the bytes in which any other response carries its data are not laid out.
Nothing is known of this constant. -/
opaque unstatedLayout {α : Type} (data : α) : List Byte

end Sys2Proof.Config
end

