-- ==== Sys2Proof/Syntax.lean ====
section
/-! DEFINITION. The commands of the part: one constructor of `Instr` for each row of
spec/opcode_table.json, with the row's operands. Operands that a request carries as numbers are raw
numbers, checked by the meaning as the rule gives; the line or loop an event arrives on is a `Fin`. -/

namespace Sys2Proof

/-- Lots, screens, booths, sound channels and booth lines are the same six things, numbered 1 to 6 in
the manual and 0 to 5 here. The six lanes are numbered the same way. -/
abbrev Lot := Fin 6

/-- A field loop, 0 to 12 (R44). -/
abbrev LoopId := Fin 13

/-- A level word: exponent 0 to 7 and mantissa 0 to 8,191 (R114). -/
structure LevelWord where
  e : Nat
  m : Nat
deriving DecidableEq, Repr

/-- Projector A or B of a booth (R79). -/
inductive Projector
  | a
  | b
deriving DecidableEq, Repr

/-- The order lamp of a stall post (R5). -/
inductive Lamp
  | off
  | steady
  | flash
deriving DecidableEq, Repr

/-- A barrier arm, ordered or reported (R27). -/
inductive Arm
  | up
  | down
deriving DecidableEq, Repr

/-- Who makes a request that more than one party may make (R61, R184). The sequence byte is the office
frame's (R182); the toggle is the one the unit's request carries (R50). -/
inductive Origin
  /-- The office computer, with the sequence byte of its frame. -/
  | office (seq : Byte)
  /-- The post of the stall named by the command. -/
  | post
  /-- The terminal of the lane named by the command. -/
  | terminal (toggle : Bool)
  /-- Kitchen station `k`, 1 to 4. -/
  | station (k : Nat) (toggle : Bool)
  /-- Handheld `h`, 1 to 16, through the handheld bridge. -/
  | handheld (h : Nat) (toggle : Bool)
deriving DecidableEq, Repr

/-- A segment entry as a request carries it (R66, R191): the kind numbered in listed order (REEL 0,
SNIPE 1, INTERMISSION 2, END 3) and the fields its presence byte marks. -/
structure EntryParam where
  kind : Nat
  label : Option Nat
  level : Option LevelWord
  duration : Option Nat
deriving DecidableEq, Repr

/-- An order line as a request carries it (R155, R191). -/
structure LineParam where
  item : Nat
  qty : Nat
deriving DecidableEq, Repr

/-- The kinds of report and request a field unit's reply may carry (R51), with their parameters (R49).
`unknown` is a kind the part does not know (R61). -/
inductive Report
  | sensorPresent
  | sensorGone
  | keyTag (tag : Nat)
  | keyLine (item qty : Nat)
  | keySubmit (intermission : Bool)
  | keyCancel
  | arrive
  | admitCar (lot fee party : Nat)
  | passed
  | left
  | exit (tag : Nat)
  | exitPassed
  | take
  | ready (order : Nat)
  | remake (order : Nat)
  | soldOut (item : Nat)
  | backIn (item : Nat)
  | discard (order : Nat)
  | lookupStall (lot stall : Nat)
  | place (tag : Nat) (lines : List LineParam)
  | deliver (order lot stall : Nat)
  | pay (tag amount : Nat)
  | unknown (kind : Nat)
deriving DecidableEq, Repr

/-- A report as a reply carries it: toggle, handheld number (read from the bridge's replies alone) and
kind with parameters (R49). -/
structure ReplyReport where
  toggle : Bool
  handheld : Nat
  body : Report
deriving DecidableEq, Repr

/-- A frame received on a loop (R49). `report` is none for the kind IDLE. `lamp` is read from a stall
post's reply, `arm` from a lane terminal's and `held` (none, or a toggle) from a service unit's. -/
structure LoopReply where
  address : Nat
  checkRight : Bool
  restart : Bool
  report : Option ReplyReport
  lamp : Lamp
  arm : Arm
  held : Option Bool
deriving DecidableEq, Repr

/-- One constructor for each row of spec/opcode_table.json. -/
inductive Instr
  -- the part and its time base
  | powerOnReset
  | siteClockTick
  -- Office Link Port
  | officeTransfer (bytes : List Byte)
  | responseRead
  | readNotices (seq : Byte)
  | openSession (seq : Byte)
  | closeSession (seq : Byte)
  | forceClose (seq : Byte)
  | setClock (seq : Byte) (time : Nat)
  | readClock (seq : Byte)
  -- Lot Register
  | readPass (seq : Byte) (tag : Nat)
  | findTag (seq : Byte) (tag : Nat)
  | readStall (seq : Byte) (lot stall : Nat)
  | readLot (seq : Byte) (lot : Nat)
  | retirePass (seq : Byte) (tag : Nat)
  | setCapacity (seq : Byte) (lot value : Nat)
  | setHeadLimit (seq : Byte) (lot value : Nat)
  | setExitPolicy (seq : Byte) (lot policy : Nat)
  | setLotLevels (seq : Byte) (lot : Nat) (post handheld rush : Option Nat)
  | setTimers (seq : Byte) (transit grace : Option Nat)
  | setOutOfService (seq : Byte) (lot stall : Nat)
  | clearOutOfService (seq : Byte) (lot stall : Nat)
  | sensorPresent (o : Origin) (lot stall : Nat)
  | sensorGone (o : Origin) (lot stall : Nat)
  | keyTag (o : Origin) (lot stall tag : Nat)
  | lookupStall (o : Origin) (lot stall : Nat)
  | transitExpiry (tag : Nat)
  | graceExpiry (l : Lot) (stall : Nat)
  -- Lane Sequencer
  | arrive (o : Origin) (lane : Nat)
  | admitCar (o : Origin) (lane lot fee party : Nat)
  | passed (o : Origin) (lane : Nat)
  | left (o : Origin) (lane : Nat)
  | exit (o : Origin) (lane tag : Nat)
  | exitPassed (o : Origin) (lane : Nat)
  | exitUntagged (seq : Byte) (lane : Nat)
  | readLane (seq : Byte) (lane : Nat)
  -- Loop Master
  | setFitted (seq : Byte) (loop address : Nat) (fitted : Bool)
  | readLoop (seq : Byte) (loop : Nat)
  | sweepStart (n : LoopId)
  | poll (n : LoopId)
  | loopReply (n : LoopId) (reply : LoopReply)
  | replyWindowExpiry (n : LoopId)
  | loopLateFrameDiscarded (n : LoopId)
  -- Programme Store
  | loadProgramme (seq : Byte) (lot : Nat) (entries : List EntryParam)
  | editSegment (seq : Byte) (lot pos : Nat) (entry : EntryParam)
  | insertSegment (seq : Byte) (lot pos : Nat) (entry : EntryParam)
  | deleteSegment (seq : Byte) (lot pos : Nat)
  | readProgramme (seq : Byte) (lot : Nat)
  -- Booth Sequencer
  | startShow (seq : Byte) (lot : Nat)
  | halt (seq : Byte) (lot : Nat)
  | resume (seq : Byte) (lot pos : Nat)
  | clearBooth (seq : Byte) (lot : Nat)
  | setMotorLead (seq : Byte) (lot seconds : Nat)
  | readBooth (seq : Byte) (lot : Nat)
  | threaded (l : Lot) (p : Projector) (label : Nat)
  | unloaded (l : Lot) (p : Projector)
  | motorUp (l : Lot) (p : Projector)
  | cueMotor (l : Lot) (p : Projector)
  | cueChange (l : Lot) (p : Projector)
  | runout (l : Lot) (p : Projector)
  | filmBreak (l : Lot) (p : Projector)
  | preRollExpiry (l : Lot)
  | intermissionExpiry (l : Lot)
  | boothLineDown (l : Lot)
  -- Booth Line Ports
  | ack (l : Lot) (number : Nat)
  | ackDeadlineExpiry (l : Lot)
  | hello (l : Lot)
  | boothFrameDropped (l : Lot)
  | readLine (seq : Byte) (lot : Nat) (clear : Bool)
  -- Channel Controller
  | probe (l : Lot) (word : LevelWord)
  | setTrim (seq : Byte) (lot : Nat) (word : LevelWord)
  | setCorrection (seq : Byte) (lot : Nat) (word : LevelWord)
  | setCorrectionLimits (seq : Byte) (lot : Nat) (lower upper : LevelWord)
  | setFillLevel (seq : Byte) (lot : Nat) (word : LevelWord)
  | setDuckLevel (seq : Byte) (lot : Nat) (word : LevelWord)
  | setTarget (seq : Byte) (lot : Nat) (word : LevelWord)
  | setAutoLevel (seq : Byte) (lot : Nat) (enable : Bool)
  | setUnderflowPolicy (seq : Byte) (lot policy : Nat)
  | setMaster (seq : Byte) (word : LevelWord)
  | announce (seq : Byte) (mask duration : Nat)
  | announceEnd (seq : Byte) (mask : Nat)
  | announcementExpiry (l : Lot)
  | setAlertMask (seq : Byte) (lot mask : Nat)
  | clearConditions (seq : Byte) (lot : Nat)
  | readChannel (seq : Byte) (lot : Nat)
  -- Order Table
  | place (o : Origin) (tag : Option Nat) (level : Nat) (lines : List LineParam)
  | deliver (o : Origin) (order : Nat) (stall : Option (Nat × Nat))
  | pay (o : Origin) (tag amount : Nat)
  | cancelOrder (seq : Byte) (order : Nat)
  | discard (o : Origin) (order : Nat)
  | soldOut (o : Origin) (item : Nat)
  | backIn (o : Origin) (item : Nat)
  | setPrice (seq : Byte) (item price : Nat)
  | readOrder (seq : Byte) (order : Nat)
  | ordersOfTag (seq : Byte) (tag : Nat)
  | readPrices (seq : Byte) (first last : Nat)
  | readLotWindow (seq : Byte) (lot : Nat)
  | keyLine (o : Origin) (lot stall item qty : Nat)
  | keySubmit (o : Origin) (lot stall : Nat) (intermission : Bool)
  | keyCancel (o : Origin) (lot stall : Nat)
  | draftExpiry (order : Nat)
  -- Kitchen Dispatcher
  | take (o : Origin) (station : Nat)
  | ready (o : Origin) (order : Nat)
  | remake (o : Origin) (order : Nat)
  | setLevel (seq : Byte) (order level : Nat)
  | requeueStation (seq : Byte) (station : Nat)
  | setBaseFloor (seq : Byte) (station level : Nat)
  | setAgingPeriod (seq : Byte) (seconds : Nat)
  | agingExpiry
  | readQueue (seq : Byte)
  | readStation (seq : Byte) (station : Nat)
deriving DecidableEq, Repr

end Sys2Proof
end

