-- ==== Sys2Proof/Decode.lean ====
section
/-! DEFINITION. The request frames of the office link (R182, R184, R191, "central layouts"): the frame
checks, the parameters of every request code, and the encoder of an office request. No row of
spec/opcode_table.json carries bits, so `decodeTableWord` reads none. -/

namespace Sys2Proof

/-- No row of spec/opcode_table.json gives bits: a word spells no command. -/
def decodeTableWord (_nbits _w : Nat) : Option Instr := none

namespace Decode

/-! ## Fields -/

/-- A two-byte field, high byte first. -/
def num16 (hi lo : Byte) : Nat := hi.toNat * 256 + lo.toNat

/-- A three-byte field, high byte first. -/
def num24 (a b c : Byte) : Nat := a.toNat * 65536 + b.toNat * 256 + c.toNat

/-- The level word of a 16-bit pattern: exponent in bits 15 to 13, mantissa in bits 12 to 0. -/
def levelOf (hi lo : Byte) : LevelWord := ⟨num16 hi lo / 8192, num16 hi lo % 8192⟩

/-- A field a presence bit marks. -/
def present {α : Type} (mark : Byte) (bit : Nat) (x : α) : Option α :=
  if mark.getLsbD bit then some x else none

/-- What the parameters of a request code spell. -/
inductive Parsed
  /-- The size is not the code's. -/
  | wrongSize
  /-- The size is right, but a one-byte flag is neither 0 nor 1 (log entry 8). -/
  | badField
  /-- A request. -/
  | request (i : Instr)
deriving DecidableEq, Repr

/-- A one-byte flag, 0 or 1. -/
def flagged (b : Byte) (make : Bool → Instr) : Parsed :=
  if b = 0 then .request (make false) else if b = 1 then .request (make true) else .badField

/-- R191: a segment entry of eight bytes: kind, presence, reel label, level word, duration. -/
def entryOf (kind mark l1 l0 w1 w0 d1 d0 : Byte) : EntryParam :=
  { kind := kind.toNat
    label := present mark 0 (num16 l1 l0)
    level := present mark 1 (levelOf w1 w0)
    duration := present mark 2 (num16 d1 d0) }

/-- R191: a list of segment entries, its count read. -/
def entriesOf : Nat → List Byte → Option (List EntryParam)
  | 0, [] => some []
  | n + 1, k :: p :: l1 :: l0 :: w1 :: w0 :: d1 :: d0 :: rest =>
    (entriesOf n rest).map fun es => entryOf k p l1 l0 w1 w0 d1 d0 :: es
  | _, _ => none

/-- R191: a list of order lines, its count read. -/
def linesOf : Nat → List Byte → Option (List LineParam)
  | 0, [] => some []
  | n + 1, item :: qty :: rest =>
    (linesOf n rest).map fun ls => { item := item.toNat, qty := qty.toNat } :: ls
  | _, _ => none

/-- A list parameter that was read, or the wrong size. -/
def listed {α : Type} (xs : Option (List α)) (make : List α → Instr) : Parsed :=
  match xs with
  | some ys => .request (make ys)
  | none => .wrongSize

/-! ## Parameters by size -/

/-- No parameter. -/
def p0 (i : Instr) : List Byte → Parsed
  | [] => .request i
  | _ => .wrongSize
/-- One byte. -/
def p1 (make : Nat → Instr) : List Byte → Parsed
  | [a] => .request (make a.toNat)
  | _ => .wrongSize
/-- One byte and one byte. -/
def p11 (make : Nat → Nat → Instr) : List Byte → Parsed
  | [a, b] => .request (make a.toNat b.toNat)
  | _ => .wrongSize
/-- One byte and a flag. -/
def p1f (make : Nat → Bool → Instr) : List Byte → Parsed
  | [a, b] => flagged b (make a.toNat)
  | _ => .wrongSize
/-- Two bytes. -/
def p2 (make : Nat → Instr) : List Byte → Parsed
  | [a, b] => .request (make (num16 a b))
  | _ => .wrongSize
/-- A level word. -/
def pw (make : LevelWord → Instr) : List Byte → Parsed
  | [a, b] => .request (make (levelOf a b))
  | _ => .wrongSize
/-- One byte and two bytes. -/
def p12 (make : Nat → Nat → Instr) : List Byte → Parsed
  | [a, b, c] => .request (make a.toNat (num16 b c))
  | _ => .wrongSize
/-- One byte and a level word. -/
def p1w (make : Nat → LevelWord → Instr) : List Byte → Parsed
  | [a, b, c] => .request (make a.toNat (levelOf b c))
  | _ => .wrongSize
/-- One byte and two level words. -/
def p1ww (make : Nat → LevelWord → LevelWord → Instr) : List Byte → Parsed
  | [a, b, c, d, e] => .request (make a.toNat (levelOf b c) (levelOf d e))
  | _ => .wrongSize
/-- Two bytes and one byte. -/
def p21 (make : Nat → Nat → Instr) : List Byte → Parsed
  | [a, b, c] => .request (make (num16 a b) c.toNat)
  | _ => .wrongSize
/-- Three bytes. -/
def p3 (make : Nat → Instr) : List Byte → Parsed
  | [a, b, c] => .request (make (num24 a b c))
  | _ => .wrongSize
/-- Two bytes and three bytes. -/
def p23 (make : Nat → Nat → Instr) : List Byte → Parsed
  | [a, b, c, d, e] => .request (make (num16 a b) (num24 c d e))
  | _ => .wrongSize
/-- One byte, two bytes and two bytes. -/
def p122 (make : Nat → Nat → Nat → Instr) : List Byte → Parsed
  | [a, b, c, d, e] => .request (make a.toNat (num16 b c) (num16 d e))
  | _ => .wrongSize
/-- One byte, two bytes and a flag. -/
def p12f (make : Nat → Nat → Bool → Instr) : List Byte → Parsed
  | [a, b, c, d] => flagged d (make a.toNat (num16 b c))
  | _ => .wrongSize
/-- One byte, two bytes, one byte and one byte. -/
def p1211 (make : Nat → Nat → Nat → Nat → Instr) : List Byte → Parsed
  | [a, b, c, d, e] => .request (make a.toNat (num16 b c) d.toNat e.toNat)
  | _ => .wrongSize
/-- Four one-byte fields. -/
def p1111 (make : Nat → Nat → Nat → Nat → Instr) : List Byte → Parsed
  | [a, b, c, d] => .request (make a.toNat b.toNat c.toNat d.toNat)
  | _ => .wrongSize
/-- One byte, one byte and a flag. -/
def p11f (make : Nat → Nat → Bool → Instr) : List Byte → Parsed
  | [a, b, c] => flagged c (make a.toNat b.toNat)
  | _ => .wrongSize
/-- One byte, one byte and a segment entry. -/
def p11e (make : Nat → Nat → EntryParam → Instr) : List Byte → Parsed
  | [a, b, k, p, l1, l0, w1, w0, d1, d0] =>
    .request (make a.toNat b.toNat (entryOf k p l1 l0 w1 w0 d1 d0))
  | _ => .wrongSize
/-- Set Lot Levels: presence, lot, post order, handheld and rush level. -/
def pLotLevels (seq : Byte) : List Byte → Parsed
  | [m, l, p, h, r] =>
    .request (.setLotLevels seq l.toNat (present m 0 p.toNat) (present m 1 h.toNat)
      (present m 2 r.toNat))
  | _ => .wrongSize
/-- Set Timers: presence, transit limit and vacate grace. -/
def pTimers (seq : Byte) : List Byte → Parsed
  | [m, a, b, c, d] =>
    .request (.setTimers seq (present m 0 (num16 a b)) (present m 1 (num16 c d)))
  | _ => .wrongSize
/-- Load Programme: lot and a list of entries. -/
def pLoad (seq : Byte) : List Byte → Parsed
  | l :: n :: rest => listed (entriesOf n.toNat rest) (.loadProgramme seq l.toNat)
  | _ => .wrongSize
/-- The office's PLACE: presence, tag, level and a list of lines (R156). -/
def pPlace (seq : Byte) : List Byte → Parsed
  | m :: t1 :: t0 :: v :: n :: rest =>
    listed (linesOf n.toNat rest) (.place (.office seq) (present m 0 (num16 t1 t0)) v.toNat)
  | _ => .wrongSize
/-- DELIVER: presence, order, and the stall as lot and stall number (log entry 9). -/
def pDeliver (seq : Byte) : List Byte → Parsed
  | [m, o1, o0, l, s1, s0] =>
    .request (.deliver (.office seq) (num16 o1 o0) (present m 0 (l.toNat, num16 s1 s0)))
  | _ => .wrongSize

/-! ## The catalogue -/

/-- R184: the parameters of a request code, or none for a code that is not of the catalogue. -/
def paramsOf (code : Nat) (seq : Byte) (ps : List Byte) : Option Parsed :=
  let o := Origin.office seq
  match code with
  | 1 => some (p0 (.readNotices seq) ps)
  | 2 => some (p0 (.openSession seq) ps)
  | 3 => some (p0 (.closeSession seq) ps)
  | 4 => some (p0 (.forceClose seq) ps)
  | 5 => some (p3 (.setClock seq) ps)
  | 6 => some (p0 (.readClock seq) ps)
  | 16 => some (p2 (.readPass seq) ps)
  | 17 => some (p2 (.findTag seq) ps)
  | 18 => some (p12 (.readStall seq) ps)
  | 19 => some (p1 (.readLot seq) ps)
  | 20 => some (p2 (.retirePass seq) ps)
  | 21 => some (p12 (.setCapacity seq) ps)
  | 22 => some (p12 (.setHeadLimit seq) ps)
  | 23 => some (p11 (.setExitPolicy seq) ps)
  | 24 => some (pLotLevels seq ps)
  | 25 => some (pTimers seq ps)
  | 26 => some (p12 (.setOutOfService seq) ps)
  | 27 => some (p12 (.clearOutOfService seq) ps)
  | 28 => some (p12 (.sensorPresent o) ps)
  | 29 => some (p12 (.sensorGone o) ps)
  | 30 => some (p122 (.keyTag o) ps)
  | 31 => some (p12 (.lookupStall o) ps)
  | 32 => some (p1 (.arrive o) ps)
  | 33 => some (p1111 (.admitCar o) ps)
  | 34 => some (p1 (.passed o) ps)
  | 35 => some (p1 (.left o) ps)
  | 36 => some (p12 (.exit o) ps)
  | 37 => some (p1 (.exitPassed o) ps)
  | 38 => some (p1 (.exitUntagged seq) ps)
  | 39 => some (p1 (.readLane seq) ps)
  | 44 => some (p11f (.setFitted seq) ps)
  | 45 => some (p1 (.readLoop seq) ps)
  | 48 => some (pLoad seq ps)
  | 49 => some (p11e (.editSegment seq) ps)
  | 50 => some (p11e (.insertSegment seq) ps)
  | 51 => some (p11 (.deleteSegment seq) ps)
  | 52 => some (p1 (.readProgramme seq) ps)
  | 56 => some (p1 (.startShow seq) ps)
  | 57 => some (p1 (.halt seq) ps)
  | 58 => some (p11 (.resume seq) ps)
  | 59 => some (p1 (.clearBooth seq) ps)
  | 60 => some (p12 (.setMotorLead seq) ps)
  | 61 => some (p1 (.readBooth seq) ps)
  | 62 => some (p1f (.readLine seq) ps)
  | 64 => some (p1w (.setTrim seq) ps)
  | 65 => some (p1w (.setCorrection seq) ps)
  | 66 => some (p1ww (.setCorrectionLimits seq) ps)
  | 67 => some (p1w (.setFillLevel seq) ps)
  | 68 => some (p1w (.setDuckLevel seq) ps)
  | 69 => some (p1w (.setTarget seq) ps)
  | 70 => some (p1f (.setAutoLevel seq) ps)
  | 71 => some (p11 (.setUnderflowPolicy seq) ps)
  | 72 => some (pw (.setMaster seq) ps)
  | 73 => some (p12 (.announce seq) ps)
  | 74 => some (p1 (.announceEnd seq) ps)
  | 75 => some (p11 (.setAlertMask seq) ps)
  | 76 => some (p1 (.clearConditions seq) ps)
  | 77 => some (p1 (.readChannel seq) ps)
  | 80 => some (pPlace seq ps)
  | 81 => some (pDeliver seq ps)
  | 82 => some (p23 (.pay o) ps)
  | 83 => some (p2 (.cancelOrder seq) ps)
  | 84 => some (p2 (.discard o) ps)
  | 85 => some (p1 (.soldOut o) ps)
  | 86 => some (p1 (.backIn o) ps)
  | 87 => some (p12 (.setPrice seq) ps)
  | 88 => some (p2 (.readOrder seq) ps)
  | 89 => some (p2 (.ordersOfTag seq) ps)
  | 90 => some (p11 (.readPrices seq) ps)
  | 91 => some (p1 (.readLotWindow seq) ps)
  | 92 => some (p1211 (.keyLine o) ps)
  | 93 => some (p12f (.keySubmit o) ps)
  | 94 => some (p12 (.keyCancel o) ps)
  | 96 => some (p1 (.take o) ps)
  | 97 => some (p2 (.ready o) ps)
  | 98 => some (p2 (.remake o) ps)
  | 99 => some (p21 (.setLevel seq) ps)
  | 100 => some (p1 (.requeueStation seq) ps)
  | 101 => some (p11 (.setBaseFloor seq) ps)
  | 102 => some (p2 (.setAgingPeriod seq) ps)
  | 103 => some (p0 (.readQueue seq) ps)
  | 104 => some (p1 (.readStation seq) ps)
  | _ => none

/-! ## Frames -/

/-- What a transfer carries (R182). -/
inductive FrameResult
  /-- The first two bytes are both 0: no request. -/
  | nothing
  /-- The frame fails a check; the byte is the sequence byte to echo. -/
  | frameError (seq : Byte)
  /-- The request code is not of the catalogue. -/
  | unknownRequest (seq : Byte)
  /-- A flag byte outside its values (log entry 8). -/
  | badField (seq : Byte)
  /-- A request. -/
  | request (i : Instr)
deriving DecidableEq, Repr

/-- The sum modulo 256 of bytes. -/
def byteSum : List Byte → Byte
  | [] => 0
  | b :: rest => b + byteSum rest

/-- R182: the sequence byte as it was received, 0 if none was: byte 3 of the transfer, also where the
length field says that the frame is shorter (log entry 32, DESIGN CHOICE). -/
def echoSeq (bytes : List Byte) : Byte := bytes.getD 3 0

/-- The last check of R182 on a frame that passed the first two. -/
def decodeBody (code seq : Byte) (ps : List Byte) : FrameResult :=
  match paramsOf code.toNat seq ps with
  | none => .unknownRequest seq
  | some .wrongSize => .frameError seq
  | some .badField => .badField seq
  | some (.request i) => .request i

/-- R182: the bytes shifted in during a transfer, checked in order. -/
def decodeFrame (bytes : List Byte) : FrameResult :=
  match bytes with
  | [] => .frameError 0
  | [_] => .frameError 0
  | b0 :: b1 :: rest =>
    if b0 = 0 ∧ b1 = 0 then .nothing
    else
      let len := num16 b0 b1
      if len < 5 ∨ 8191 < len ∨ bytes.length < len then .frameError (echoSeq bytes)
      else if byteSum (bytes.take len) ≠ 0 then .frameError (echoSeq bytes)
      else decodeBody (bytes.getD 2 0) (echoSeq bytes) ((rest.take (len - 3)).drop 2)

/-! ## The encoder -/

/-- A one-byte field. -/
def enc1 (n : Nat) : List Byte := [BitVec.ofNat 8 n]
/-- A two-byte field, high byte first. -/
def enc2 (n : Nat) : List Byte := [BitVec.ofNat 8 (n / 256), BitVec.ofNat 8 n]
/-- A three-byte field, high byte first. -/
def enc3 (n : Nat) : List Byte :=
  [BitVec.ofNat 8 (n / 65536), BitVec.ofNat 8 (n / 256), BitVec.ofNat 8 n]
/-- A level word. -/
def encW (w : LevelWord) : List Byte := enc2 (w.e * 8192 + w.m)
/-- A flag. -/
def encF (b : Bool) : List Byte := if b then [1] else [0]
/-- The presence bit of a field that may be absent. -/
def markBit {α : Type} (x : Option α) (bit : Nat) : Byte :=
  if x.isSome then BitVec.twoPow 8 bit else 0
/-- A segment entry. -/
def encEntry (e : EntryParam) : List Byte :=
  enc1 e.kind ++ [markBit e.label 0 ||| markBit e.level 1 ||| markBit e.duration 2] ++
    enc2 (e.label.getD 0) ++ encW (e.level.getD ⟨0, 0⟩) ++ enc2 (e.duration.getD 0)
/-- The entries of a list, without its count. -/
def encEntries : List EntryParam → List Byte
  | [] => []
  | e :: rest => encEntry e ++ encEntries rest
/-- The lines of a list, without its count. -/
def encLines : List LineParam → List Byte
  | [] => []
  | x :: rest => enc1 x.item ++ enc1 x.qty ++ encLines rest

/-- A request of the office computer as its frame carries it. -/
structure Request where
  code : Nat
  seq : Byte
  params : List Byte
deriving DecidableEq, Repr

/-- The office computer's own form of a request, or none for another party's. -/
def fromOffice (o : Origin) (code : Nat) (params : List Byte) : Option Request :=
  match o with
  | .office seq => some ⟨code, seq, params⟩
  | .post => none
  | .terminal _ => none
  | .station _ _ => none
  | .handheld _ _ => none

/-- R184, R191: code, sequence byte and parameters of an office request; none for a command that is not
one. -/
def requestOf : Instr → Option Request
  | .powerOnReset => none
  | .siteClockTick => none
  | .officeTransfer _ => none
  | .responseRead => none
  | .readNotices q => some ⟨1, q, []⟩
  | .openSession q => some ⟨2, q, []⟩
  | .closeSession q => some ⟨3, q, []⟩
  | .forceClose q => some ⟨4, q, []⟩
  | .setClock q t => some ⟨5, q, enc3 t⟩
  | .readClock q => some ⟨6, q, []⟩
  | .readPass q t => some ⟨16, q, enc2 t⟩
  | .findTag q t => some ⟨17, q, enc2 t⟩
  | .readStall q l n => some ⟨18, q, enc1 l ++ enc2 n⟩
  | .readLot q l => some ⟨19, q, enc1 l⟩
  | .retirePass q t => some ⟨20, q, enc2 t⟩
  | .setCapacity q l v => some ⟨21, q, enc1 l ++ enc2 v⟩
  | .setHeadLimit q l v => some ⟨22, q, enc1 l ++ enc2 v⟩
  | .setExitPolicy q l p => some ⟨23, q, enc1 l ++ enc1 p⟩
  | .setLotLevels q l p h r =>
    some ⟨24, q, [markBit p 0 ||| markBit h 1 ||| markBit r 2] ++ enc1 l ++ enc1 (p.getD 0) ++
      enc1 (h.getD 0) ++ enc1 (r.getD 0)⟩
  | .setTimers q t g =>
    some ⟨25, q, [markBit t 0 ||| markBit g 1] ++ enc2 (t.getD 0) ++ enc2 (g.getD 0)⟩
  | .setOutOfService q l n => some ⟨26, q, enc1 l ++ enc2 n⟩
  | .clearOutOfService q l n => some ⟨27, q, enc1 l ++ enc2 n⟩
  | .sensorPresent o l n => fromOffice o 28 (enc1 l ++ enc2 n)
  | .sensorGone o l n => fromOffice o 29 (enc1 l ++ enc2 n)
  | .keyTag o l n t => fromOffice o 30 (enc1 l ++ enc2 n ++ enc2 t)
  | .lookupStall o l n => fromOffice o 31 (enc1 l ++ enc2 n)
  | .transitExpiry _ => none
  | .graceExpiry _ _ => none
  | .arrive o i => fromOffice o 32 (enc1 i)
  | .admitCar o i l f n => fromOffice o 33 (enc1 i ++ enc1 l ++ enc1 f ++ enc1 n)
  | .passed o i => fromOffice o 34 (enc1 i)
  | .left o i => fromOffice o 35 (enc1 i)
  | .exit o i t => fromOffice o 36 (enc1 i ++ enc2 t)
  | .exitPassed o i => fromOffice o 37 (enc1 i)
  | .exitUntagged q i => some ⟨38, q, enc1 i⟩
  | .readLane q i => some ⟨39, q, enc1 i⟩
  | .setFitted q n a b => some ⟨44, q, enc1 n ++ enc1 a ++ encF b⟩
  | .readLoop q n => some ⟨45, q, enc1 n⟩
  | .sweepStart _ => none
  | .poll _ => none
  | .loopReply _ _ => none
  | .replyWindowExpiry _ => none
  | .loopLateFrameDiscarded _ => none
  | .loadProgramme q l es => some ⟨48, q, enc1 l ++ enc1 es.length ++ encEntries es⟩
  | .editSegment q l p e => some ⟨49, q, enc1 l ++ enc1 p ++ encEntry e⟩
  | .insertSegment q l p e => some ⟨50, q, enc1 l ++ enc1 p ++ encEntry e⟩
  | .deleteSegment q l p => some ⟨51, q, enc1 l ++ enc1 p⟩
  | .readProgramme q l => some ⟨52, q, enc1 l⟩
  | .startShow q l => some ⟨56, q, enc1 l⟩
  | .halt q l => some ⟨57, q, enc1 l⟩
  | .resume q l p => some ⟨58, q, enc1 l ++ enc1 p⟩
  | .clearBooth q l => some ⟨59, q, enc1 l⟩
  | .setMotorLead q l v => some ⟨60, q, enc1 l ++ enc2 v⟩
  | .readBooth q l => some ⟨61, q, enc1 l⟩
  | .threaded _ _ _ => none
  | .unloaded _ _ => none
  | .motorUp _ _ => none
  | .cueMotor _ _ => none
  | .cueChange _ _ => none
  | .runout _ _ => none
  | .filmBreak _ _ => none
  | .preRollExpiry _ => none
  | .intermissionExpiry _ => none
  | .boothLineDown _ => none
  | .ack _ _ => none
  | .ackDeadlineExpiry _ => none
  | .hello _ => none
  | .boothFrameDropped _ => none
  | .readLine q l b => some ⟨62, q, enc1 l ++ encF b⟩
  | .probe _ _ => none
  | .setTrim q l w => some ⟨64, q, enc1 l ++ encW w⟩
  | .setCorrection q l w => some ⟨65, q, enc1 l ++ encW w⟩
  | .setCorrectionLimits q l w x => some ⟨66, q, enc1 l ++ encW w ++ encW x⟩
  | .setFillLevel q l w => some ⟨67, q, enc1 l ++ encW w⟩
  | .setDuckLevel q l w => some ⟨68, q, enc1 l ++ encW w⟩
  | .setTarget q l w => some ⟨69, q, enc1 l ++ encW w⟩
  | .setAutoLevel q l b => some ⟨70, q, enc1 l ++ encF b⟩
  | .setUnderflowPolicy q l p => some ⟨71, q, enc1 l ++ enc1 p⟩
  | .setMaster q w => some ⟨72, q, encW w⟩
  | .announce q m d => some ⟨73, q, enc1 m ++ enc2 d⟩
  | .announceEnd q m => some ⟨74, q, enc1 m⟩
  | .announcementExpiry _ => none
  | .setAlertMask q l m => some ⟨75, q, enc1 l ++ enc1 m⟩
  | .clearConditions q l => some ⟨76, q, enc1 l⟩
  | .readChannel q l => some ⟨77, q, enc1 l⟩
  | .place o t v ls =>
    fromOffice o 80 ([markBit t 0] ++ enc2 (t.getD 0) ++ enc1 v ++ enc1 ls.length ++ encLines ls)
  | .deliver o n st =>
    fromOffice o 81 ([markBit st 0] ++ enc2 n ++ enc1 (st.getD (0, 0)).1 ++ enc2 (st.getD (0, 0)).2)
  | .pay o t m => fromOffice o 82 (enc2 t ++ enc3 m)
  | .cancelOrder q n => some ⟨83, q, enc2 n⟩
  | .discard o n => fromOffice o 84 (enc2 n)
  | .soldOut o n => fromOffice o 85 (enc1 n)
  | .backIn o n => fromOffice o 86 (enc1 n)
  | .setPrice q n v => some ⟨87, q, enc1 n ++ enc2 v⟩
  | .readOrder q n => some ⟨88, q, enc2 n⟩
  | .ordersOfTag q t => some ⟨89, q, enc2 t⟩
  | .readPrices q a b => some ⟨90, q, enc1 a ++ enc1 b⟩
  | .readLotWindow q l => some ⟨91, q, enc1 l⟩
  | .keyLine o l n i v => fromOffice o 92 (enc1 l ++ enc2 n ++ enc1 i ++ enc1 v)
  | .keySubmit o l n b => fromOffice o 93 (enc1 l ++ enc2 n ++ encF b)
  | .keyCancel o l n => fromOffice o 94 (enc1 l ++ enc2 n)
  | .draftExpiry _ => none
  | .take o k => fromOffice o 96 (enc1 k)
  | .ready o n => fromOffice o 97 (enc2 n)
  | .remake o n => fromOffice o 98 (enc2 n)
  | .setLevel q n v => some ⟨99, q, enc2 n ++ enc1 v⟩
  | .requeueStation q k => some ⟨100, q, enc1 k⟩
  | .setBaseFloor q k v => some ⟨101, q, enc1 k ++ enc1 v⟩
  | .setAgingPeriod q v => some ⟨102, q, enc2 v⟩
  | .agingExpiry => none
  | .readQueue q => some ⟨103, q, []⟩
  | .readStation q k => some ⟨104, q, enc1 k⟩

/-- The frame of a request: length, code, sequence byte, parameters and the check that brings the sum of
every byte to 0. -/
def frameOf (r : Request) : List Byte :=
  let body := enc2 (r.params.length + 5) ++ [BitVec.ofNat 8 r.code, r.seq] ++ r.params
  body ++ [0 - byteSum body]

/-- The frame of an office request. -/
def encodeFrame (i : Instr) : Option (List Byte) := (requestOf i).map frameOf

end Decode

end Sys2Proof
end

