-- ==== Sys2Proof/Machine/State.lean ====
section
/-! DEFINITION. Everything the manual gives the part to hold, as plain data, and the state after
power-on reset. A table is a list of (key, record) pairs in rising key order; a bank is a fixed number
of like contexts. -/

namespace Sys2Proof.Machine

/-- A table: records by number, keys strictly rising. -/
abbrev Table (α : Type) := List (Nat × α)

/-- A fixed number of like contexts. -/
abbrev Bank (α : Type) (n : Nat) := Vector α n

/-! ## Office Link Port -/

/-- The session state (R187). -/
inductive Session
  | closed
  | open
  | closing
deriving DecidableEq, Repr

/-- The status codes (table under R184). The numbers are `statusCode` in Operands.lean. -/
inductive Status
  | ok
  | frameError
  | unknownRequest
  | notPermitted
  | outOfRange
  | badState
  | noSuch
  | noVehicle
  | notOpen
  | headLimit
  | tableFull
  | tabDue
  | stallTaken
  | wrongLot
  | liveSegment
  | latched
  | lotFull
  | windowClosed
  | soldOut
  | lineLimit
  | totalLimit
  | wrongStall
  | stationFull
  | nothingEligible
  | notTop
deriving DecidableEq, Repr

/-- The fifteen notice kinds, in index order (R186). -/
inductive NoticeKind
  | transitOverdue
  | postOffline
  | postOnline
  | stationOffline
  | changeoverRisk
  | lateChangeover
  | screenGap
  | boothHalted
  | wrongReel
  | lineDown
  | lineUp
  | levelAlert
  | ordersUnclaimed
  | tabSaturated
  | sessionClosed
deriving DecidableEq, Repr

/-- One entry of the notice set: pending flag and mask, bit 0 the site and bits 1 to 6 the lots (R186). -/
structure Notice where
  pending : Bool
  mask : BitVec 7
deriving DecidableEq, Repr

/-! ## Lot Register -/

/-- R2. -/
inductive PassState
  | inLane
  | inTransit
  | parked
deriving DecidableEq, Repr

/-- R2. -/
inductive FeeClass
  | car
  | van
  | passholder
  | comp
deriving DecidableEq, Repr

/-- A pass record (R2). The tag is its key in the pass table. -/
structure PassRec where
  state : PassState
  lot : Lot
  fee : FeeClass
  party : Nat
  lane : Option Nat
  stall : Option Nat
  admitTime : Nat
  transit : Option Nat
  overdue : Bool
  tab : Nat
deriving DecidableEq, Repr

/-- R5. -/
inductive StallState
  | free
  | arrived
  | occupied
  | vacated
  | outOfService
deriving DecidableEq, Repr

/-- A stall record (R5). -/
structure StallRec where
  state : StallState
  tag : Option Nat
  grace : Option Nat
  lampDesired : Lamp
  online : Bool
  lampReported : Lamp
  display : Option Nat
  draft : Option Nat
deriving DecidableEq, Repr

/-- R7. -/
inductive ExitPolicy
  | hold
  | open
deriving DecidableEq, Repr

/-- The order window (R149). -/
inductive Window
  | open
  | rush
  | closed
deriving DecidableEq, Repr

/-- A lot record (R7). -/
structure LotRec where
  inside : Nat
  heads : Nat
  parked : Nat
  admittedCar : Nat
  admittedVan : Nat
  admittedPassholder : Nat
  admittedComp : Nat
  exits : Nat
  unsettled : Nat
  capacity : Nat
  headLimit : Nat
  policy : ExitPolicy
  window : Window
  postLevel : Nat
  handLevel : Nat
  rushLevel : Nat
deriving DecidableEq, Repr

/-! ## Lane Sequencer -/

/-- R27: ADMITTED is of entry lanes and RELEASED of exit lanes. -/
inductive LaneState
  | idle
  | occupied
  | admitted
  | released
deriving DecidableEq, Repr

/-- A lane context (R27). Lane number and kind are fixed by its place in the bank. -/
structure LaneCtx where
  state : LaneState
  tag : Option Nat
  untagged : Bool
  order : Arm
  reported : Arm
  lastRefusal : Option Status
deriving DecidableEq, Repr

/-! ## Programme Store -/

/-- A segment entry (R66): the fields a kind does not use are absent by construction. -/
inductive Segment
  | reel (label : Nat) (level : LevelWord)
  | snipe (label : Nat) (level : LevelWord)
  | intermission (duration : Nat)
  | finish
deriving DecidableEq, Repr

/-! ## Booth Sequencer -/

/-- R78. -/
inductive BoothState
  | dark
  | ready
  | starting
  | running
  | changeoverPending
  | intermission
  | lateStart
  | halted
  | ended
deriving DecidableEq, Repr

/-- R79. -/
inductive ProjState
  | empty
  | threaded
  | starting
  | atSpeed
  | onScreen
  | tailing
  | spent
deriving DecidableEq, Repr

/-- A projector context (R79). -/
structure ProjCtx where
  state : ProjState
  pos : Option Nat
deriving DecidableEq, Repr

/-- R78. -/
inductive HaltReason
  | filmBreak
  | runout
  | lineDown
  | officeHalt
deriving DecidableEq, Repr

/-- A booth context (R78). The latched flag is set when `latched` holds a copy. -/
structure BoothCtx where
  state : BoothState
  current : Option Nat
  start : Option Nat
  latched : Option Segment
  haltReason : Option HaltReason
  late : Bool
  gap : Bool
  intermission : Option Nat
  preRoll : Option Nat
  motorLead : Nat
  projA : ProjCtx
  projB : ProjCtx
deriving DecidableEq, Repr

/-! ## Booth Line Ports -/

/-- A lot's sound source (R128). -/
inductive Source
  | projA
  | projB
  | fill
  | silent
deriving DecidableEq, Repr

/-- The five kinds of command (R105). -/
inductive BoothCmd
  | motor (p : Projector) (on : Bool)
  | dowser (p : Projector) (opened : Bool)
  | source (src : Source)
  | drive (code : Nat)
  | announceKey (on : Bool)
deriving DecidableEq, Repr

/-- The command in flight, with number, retry count and acknowledgement deadline in ms (R103). -/
structure InFlight where
  cmd : BoothCmd
  number : Nat
  retry : Nat
  deadline : Nat
deriving DecidableEq, Repr

/-- The block whose step issues a booth-line command (R80, R107, R134). -/
inductive Issuer
  | booth
  | channel
deriving DecidableEq, Repr

/-- A line context (R103). `sent` and `downReport` are the model's own (log entries 11 and 6). -/
structure LineCtx where
  up : Bool
  inFlight : Option InFlight
  queue : List BoothCmd
  staged : Option Nat
  lastDrive : Option Nat
  nextNumber : Nat
  dropped : Nat
  sent : Option (BoothCmd × Nat)
  downReport : Option Issuer
deriving DecidableEq, Repr

/-! ## Channel Controller -/

/-- The five conditions (R116). -/
inductive Condition
  | OVER
  | UNDER
  | DIVIDE
  | CLIP
  | LOSS
deriving DecidableEq, Repr

/-- A set of conditions, or the five settings of an alert mask (R128). -/
structure Conds where
  hasOver : Bool
  hasUnder : Bool
  hasDivide : Bool
  hasClip : Bool
  hasLoss : Bool
deriving DecidableEq, Repr

/-- R115, R128. -/
inductive Policy
  | flush
  | floor
deriving DecidableEq, Repr

/-- The causes of an evaluation (R128). -/
inductive Cause
  | segment
  | source
  | trim
  | master
  | probe
  | duckOn
  | duckOff
  | limits
deriving DecidableEq, Repr

/-- A channel context (R128). -/
structure ChannelCtx where
  segLevel : LevelWord
  source : Source
  trim : LevelWord
  corr : LevelWord
  cMin : LevelWord
  cMax : LevelWord
  target : LevelWord
  autoLevel : Bool
  fill : LevelWord
  duck : LevelWord
  announcing : Bool
  announceDeadline : Option Nat
  policy : Policy
  gain : LevelWord
  drive : Nat
  conds : Conds
  mask : Conds
  lastCause : Option Cause
deriving DecidableEq, Repr

/-! ## Order Table -/

/-- R146. -/
inductive OrderState
  | draft
  | held
  | placed
  | inPrep
  | ready
  | unclaimed
deriving DecidableEq, Repr

/-- R146. -/
inductive OrderSource
  | post
  | handheld
  | office
deriving DecidableEq, Repr

/-- A line of an order with its captured price (R147). -/
structure OrderLine where
  item : Nat
  qty : Nat
  price : Nat
deriving DecidableEq, Repr

/-- An order record (R146). The order number is its key in the order table. -/
structure OrderRec where
  state : OrderState
  tag : Option Nat
  source : OrderSource
  level : Option Nat
  seq : Option Nat
  lines : List OrderLine
  total : Nat
  placedTime : Option Nat
  lastRaise : Option Nat
  station : Option Nat
  draftDeadline : Option Nat
deriving DecidableEq, Repr

/-- An entry of the price table (R148). -/
structure PriceRec where
  listed : Bool
  price : Nat
  available : Bool
deriving DecidableEq, Repr

/-! ## Kitchen Dispatcher -/

/-- A station context (R169). The stack is held top first. -/
structure StationCtx where
  online : Bool
  baseFloor : Nat
  stack : List Nat
deriving DecidableEq, Repr

/-! ## Responses -/

/-- What a unit of a loop reads as in Read Loop (R64): address, fitted, online, miss count, and for a
service unit whether its pending response slot holds a response. -/
structure UnitView where
  address : Nat
  fitted : Bool
  online : Bool
  miss : Nat
  pending : Bool
deriving DecidableEq, Repr

/-- An order as Orders of Tag shows it (R166). -/
structure OrderView where
  number : Nat
  state : OrderState
  level : Option Nat
  total : Nat
deriving DecidableEq, Repr

/-- An order as LOOKUP_STALL shows it (R166). -/
structure BillView where
  number : Nat
  state : OrderState
  total : Nat
deriving DecidableEq, Repr

/-- An order as Set Level and Read Station show it (R177, R181). -/
structure LevelView where
  number : Nat
  state : OrderState
  level : Option Nat
deriving DecidableEq, Repr

/-- A line of an order as TAKE shows it (R171). -/
structure TakenLine where
  item : Nat
  qty : Nat
deriving DecidableEq, Repr

/-- An entry of the kitchen queue or the held list as Read Queue shows it (R181). -/
structure QueueView where
  number : Nat
  level : Option Nat
  seq : Option Nat
  tag : Option Nat
  placedTime : Option Nat
  lastRaise : Option Nat
deriving DecidableEq, Repr

/-- The data of a response, by what the rule of the request names. `values` are numbers in the order
the rule names them, an absent one as none. -/
inductive Data
  | none
  | values (xs : List (Option Nat))
  | clock (time : Nat)
  | found (state : PassState) (l : Lot) (stall lane : Option Nat)
  | admitted (tag : Nat) (l : Lot) (fee : FeeClass) (party time : Nat)
  | pass (tag : Nat) (p : PassRec)
  | stall (l : Lot) (n : Nat) (st : StallRec)
  | lot (r : LotRec) (untagged : Nat)
  | lane (i : Lot) (c : LaneCtx)
  | loop (count : Nat) (call : Option Nat) (units : List UnitView)
  | segments (es : List Segment)
  | segment (e : Segment) (length : Option Nat)
  | programme (es : List Segment) (live latched : Option Nat) (a b : ProjCtx)
  | booth (b : BoothCtx)
  | projector (p : Projector)
  | line (c : LineCtx)
  | word (w : LevelWord)
  | words (lower upper corr : LevelWord)
  | channel (c : ChannelCtx) (any : Bool) (master : LevelWord)
  | conds (c : Conds)
  | lookup (car : Option (Nat × Nat × List BillView))
  | order (number : Nat) (o : OrderRec)
  | orders (os : List OrderView)
  | leveled (o : LevelView)
  | prices (ps : List PriceRec)
  | window (w : Window) (post handheld rush : Nat)
  | placed (handheld : Option Nat) (number level total : Nat) (state : OrderState)
  | taken (number : Nat) (level tag : Option Nat) (stall : Option (Lot × Nat)) (lines : List TakenLine)
  | readied (number : Nat) (state : OrderState) (tag : Option Nat) (stall : Option (Lot × Nat))
  | requeued (placed unclaimed : List Nat)
  | queue (queue held : List QueueView) (period count : Nat)
  | station (online : Bool) (baseFloor floor : Nat) (stack : List LevelView)
  | session (s : Session)
  | notices (ns : Bank Notice 15)
deriving DecidableEq, Repr

/-- What an owner answers a request: status and data (R184). -/
structure Answer where
  status : Status
  data : Data
deriving DecidableEq, Repr

/-- A response standing in the office link's slot (R183). -/
structure Response where
  overrun : Bool
  seq : Byte
  answer : Answer
deriving DecidableEq, Repr

/-- A response waiting for a service unit: the toggle of its request and, for the bridge, the handheld
(R60). -/
structure PendingResponse where
  toggle : Bool
  handheld : Option Nat
  answer : Answer
deriving DecidableEq, Repr

/-- The Office Link Port: session, site clock, the three sequences, response slot and notice set. -/
structure Olp where
  session : Session
  clock : Nat
  tagSeq : Nat
  orderSeq : Nat
  placeSeq : Nat
  slot : Option Response
  notices : Bank Notice 15
deriving DecidableEq, Repr

/-! ## Loop Master -/

/-- The outcome of an acknowledgement (R50, R60). -/
inductive Outcome
  | taken
  | busy
deriving DecidableEq, Repr

/-- The acknowledgement owed to a unit (R44). -/
structure Ack where
  toggle : Bool
  outcome : Outcome
deriving DecidableEq, Repr

/-- A unit record (R44). `lastOutcome`, the outcome first given to the accepted report, is the model's
own name for what R50 has a repeat acknowledged with (log entry 12). -/
structure UnitRec where
  fitted : Bool
  online : Bool
  miss : Nat
  accepted : Option Bool
  ackOwed : Option Ack
  carried : Option Nat
  pending : Option PendingResponse
  lastOutcome : Outcome
deriving DecidableEq, Repr

/-- The item of a poll (R47). -/
inductive Item
  | display (code : Nat)
  | lamp (l : Lamp)
  | response (r : PendingResponse)
deriving DecidableEq, Repr

/-- A frame the Loop Master sends (R47, R59). -/
inductive LoopFrame
  | generalCall (code : Nat)
  | poll (address : Nat) (ack : Option Ack) (item : Option Item) (barrier : Option Arm)
deriving DecidableEq, Repr

/-- A loop context (R44). `begun`, `window` and `sent` are the model's own (log entries 5 and 11). -/
structure LoopCtx where
  pos : Option Nat
  count : Nat
  callSlot : Option Nat
  units : Table UnitRec
  begun : Bool
  window : Bool
  sent : Option LoopFrame
deriving DecidableEq, Repr

/-! ## The whole part -/

/-- The state of the part. `pending` is the queue of waiting commands. -/
structure State where
  pending : List Instr
  olp : Olp
  passes : Table PassRec
  stalls : Bank (Table StallRec) 6
  lots : Bank LotRec 6
  untagged : Nat
  transitLimit : Nat
  vacateGrace : Nat
  lanes : Bank LaneCtx 6
  loops : Bank LoopCtx 13
  programmes : Bank (List Segment) 6
  booths : Bank BoothCtx 6
  lines : Bank LineCtx 6
  channels : Bank ChannelCtx 6
  master : LevelWord
  orders : Table OrderRec
  prices : Table PriceRec
  queue : List Nat
  held : List Nat
  stations : Bank StationCtx 4
  agingPeriod : Nat
  agingCount : Nat
deriving DecidableEq, Repr

/-- No command of the part ends in a fault: the manual gives none that stops it. -/
inductive Fault
deriving DecidableEq, Repr

/-- Why the model refuses a command. -/
inductive Refusal
  /-- Raised by `exec` for a row that has no meaning yet; safe, since nothing is claimed of it. -/
  | notModelled (mnemonic : String)
deriving DecidableEq, Repr

/-! ## Power-on values -/

/-- R114: the word of value zero. -/
def trueZero : LevelWord := ⟨0, 0⟩

/-- R114: 1.0. -/
def unity : LevelWord := ⟨7, 2048⟩

/-- R5, last column. -/
def StallRec.fresh : StallRec :=
  { state := .free, tag := none, grace := none, lampDesired := .off, online := false,
    lampReported := .off, display := none, draft := none }

/-- R7, last paragraph. -/
def LotRec.fresh : LotRec :=
  { inside := 0, heads := 0, parked := 0, admittedCar := 0, admittedVan := 0,
    admittedPassholder := 0, admittedComp := 0, exits := 0, unsettled := 0, capacity := 0,
    headLimit := 0, policy := .hold, window := .closed, postLevel := 2, handLevel := 3,
    rushLevel := 5 }

/-- R27, last column. -/
def LaneCtx.fresh : LaneCtx :=
  { state := .idle, tag := none, untagged := false, order := .down, reported := .down,
    lastRefusal := none }

/-- R44, last column. -/
def UnitRec.fresh : UnitRec :=
  { fitted := true, online := false, miss := 0, accepted := none, ackOwed := none,
    carried := none, pending := none, lastOutcome := .taken }

/-- R44, last column. -/
def LoopCtx.fresh : LoopCtx :=
  { pos := none, count := 0, callSlot := none, units := [], begun := false, window := false,
    sent := none }

/-- R79. -/
def ProjCtx.fresh : ProjCtx := { state := .empty, pos := none }

/-- R78, last column. -/
def BoothCtx.fresh : BoothCtx :=
  { state := .dark, current := none, start := none, latched := none, haltReason := none,
    late := false, gap := false, intermission := none, preRoll := none,
    motorLead := Config.motorLeadDefault, projA := ProjCtx.fresh, projB := ProjCtx.fresh }

/-- R103, last column. -/
def LineCtx.fresh : LineCtx :=
  { up := false, inFlight := none, queue := [], staged := none, lastDrive := none,
    nextNumber := 0, dropped := 0, sent := none, downReport := none }

/-- The empty condition set. -/
def Conds.empty : Conds :=
  { hasOver := false, hasUnder := false, hasDivide := false, hasClip := false, hasLoss := false }

/-- R128, last column. -/
def ChannelCtx.fresh : ChannelCtx :=
  { segLevel := trueZero, source := .silent, trim := unity, corr := unity, cMin := ⟨5, 2048⟩,
    cMax := ⟨7, 8191⟩, target := unity, autoLevel := false, fill := unity, duck := unity,
    announcing := false, announceDeadline := none, policy := .flush, gain := trueZero, drive := 0,
    conds := Conds.empty,
    mask := { hasOver := true, hasUnder := true, hasDivide := true, hasClip := true, hasLoss := true },
    lastCause := none }

/-- R148. -/
def PriceRec.fresh : PriceRec := { listed := false, price := 0, available := false }

/-- R169, last column. -/
def StationCtx.fresh : StationCtx := { online := false, baseFloor := 0, stack := [] }

/-- R186: an entry of the empty notice set. -/
def Notice.clear : Notice := { pending := false, mask := 0 }

/-- R183, R186, R187, R190. -/
def Olp.fresh : Olp :=
  { session := .closed, clock := 0, tagSeq := 1, orderSeq := 1, placeSeq := 1, slot := none,
    notices := Vector.replicate 15 Notice.clear }

/-- The part right after power-on reset (R1, R5, R7, R17, R27, R44, R65, R78, R79, R103, R128, R145,
R148, R167 to R169, R175, R183, R186, R187, R190). -/
def State.reset : State :=
  { pending := []
    olp := Olp.fresh
    passes := []
    stalls := Vector.replicate 6 []
    lots := Vector.replicate 6 LotRec.fresh
    untagged := 0
    transitLimit := Config.transitDefault
    vacateGrace := Config.graceDefault
    lanes := Vector.replicate 6 LaneCtx.fresh
    loops := Vector.replicate 13 LoopCtx.fresh
    programmes := Vector.replicate 6 []
    booths := Vector.replicate 6 BoothCtx.fresh
    lines := Vector.replicate 6 LineCtx.fresh
    channels := Vector.replicate 6 ChannelCtx.fresh
    master := unity
    orders := []
    prices := []
    queue := []
    held := []
    stations := Vector.replicate 4 StationCtx.fresh
    agingPeriod := Config.agingDefault
    agingCount := Config.agingDefault }

end Sys2Proof.Machine
end

