-- ==== Sys2Proof/Machine/Ops.lean ====
section
/-! DEFINITION. The named operations over tables, banks and the fields of `State`, and the giving of an
answer to the party that asked. -/

namespace Sys2Proof.Machine

/-! ## Tables and banks -/

/-- The record a table holds under a number. -/
def Table.find {α : Type} : Table α → Nat → Option α
  | [], _ => none
  | (k, v) :: t, n => if k = n then some v else Table.find t n

/-- Write a record under a number, keeping keys rising. -/
def Table.insert {α : Type} : Table α → Nat → α → Table α
  | [], n, x => [(n, x)]
  | (k, v) :: t, n, x =>
    if n < k then (n, x) :: (k, v) :: t
    else if n = k then (n, x) :: t
    else (k, v) :: Table.insert t n x

/-- Remove the record under a number. -/
def Table.erase {α : Type} (t : Table α) (n : Nat) : Table α := t.filter fun kv => kv.1 ≠ n

/-- Read a table whose every record exists: an unlisted one reads as `d`. -/
def Table.getD {α : Type} (d : α) (t : Table α) (n : Nat) : α := (Table.find t n).getD d

/-- Write a table whose every record exists: a record equal to `d` is not listed. -/
def Table.put {α : Type} [DecidableEq α] (d : α) (t : Table α) (n : Nat) (x : α) : Table α :=
  if x = d then Table.erase t n else Table.insert t n x

/-- Rewrite every record. -/
def Table.mapV {α : Type} (f : Nat → α → α) (t : Table α) : Table α :=
  t.map fun kv => (kv.1, f kv.1 kv.2)

/-- Rewrite every listed record of a table whose every record exists. -/
def Table.mapD {α : Type} [DecidableEq α] (d : α) (f : Nat → α → α) (t : Table α) : Table α :=
  (Table.mapV f t).filter fun kv => kv.2 ≠ d

/-- The keys of a table strictly rise. -/
def Table.sorted {α : Type} : Table α → Bool
  | [] => true
  | [_] => true
  | a :: b :: t => decide (a.1 < b.1) && Table.sorted (b :: t)

/-- The canonical form of a table whose every record exists: rising keys, no record equal to `d`. -/
def Table.wf {α : Type} [DecidableEq α] (d : α) (t : Table α) : Bool :=
  Table.sorted t && t.all fun kv => decide (kv.2 ≠ d)

/-- Read a context of a bank. -/
def bankGet {α : Type} {n : Nat} (b : Bank α n) (i : Fin n) : α := b[i.val]

/-- Write a context of a bank. -/
def bankPut {α : Type} {n : Nat} (b : Bank α n) (i : Fin n) (x : α) : Bank α n :=
  b.set i.val x i.isLt

/-- The six lots in order (R137, R138). -/
def allLots : List Lot := [0, 1, 2, 3, 4, 5]

/-! ## Reading and writing the state -/

/-- A lot record. -/
def State.lotAt (s : State) (l : Lot) : LotRec := bankGet s.lots l
/-- Write a lot record. -/
def State.setLot (s : State) (l : Lot) (r : LotRec) : State := { s with lots := bankPut s.lots l r }

/-- The record of stall `n` of lot `l`. -/
def State.stallAt (s : State) (l : Lot) (n : Nat) : StallRec :=
  Table.getD StallRec.fresh (bankGet s.stalls l) n
/-- Write a stall record. -/
def State.setStall (s : State) (l : Lot) (n : Nat) (st : StallRec) : State :=
  { s with stalls := bankPut s.stalls l (Table.put StallRec.fresh (bankGet s.stalls l) n st) }

/-- The live pass with a tag (R1: a tag of 0 or above 9,999 names none). -/
def State.passAt (s : State) (tag : Nat) : Option PassRec :=
  if 1 ≤ tag ∧ tag ≤ Config.maxTag then Table.find s.passes tag else none
/-- Write a live pass. -/
def State.setPass (s : State) (tag : Nat) (p : PassRec) : State :=
  { s with passes := Table.insert s.passes tag p }
/-- Free the slot of a pass. -/
def State.dropPass (s : State) (tag : Nat) : State := { s with passes := Table.erase s.passes tag }

/-- A lane context. -/
def State.laneAt (s : State) (i : Lot) : LaneCtx := bankGet s.lanes i
/-- Write a lane context. -/
def State.setLane (s : State) (i : Lot) (c : LaneCtx) : State :=
  { s with lanes := bankPut s.lanes i c }

/-- A loop context. -/
def State.loopAt (s : State) (n : LoopId) : LoopCtx := bankGet s.loops n
/-- Write a loop context. -/
def State.setLoop (s : State) (n : LoopId) (c : LoopCtx) : State :=
  { s with loops := bankPut s.loops n c }

/-- A unit record of a loop. -/
def State.unitAt (s : State) (n : LoopId) (a : Nat) : UnitRec :=
  Table.getD UnitRec.fresh (s.loopAt n).units a
/-- Write a unit record of a loop. -/
def State.setUnit (s : State) (n : LoopId) (a : Nat) (u : UnitRec) : State :=
  s.setLoop n { s.loopAt n with units := Table.put UnitRec.fresh (s.loopAt n).units a u }

/-- A lot's programme. -/
def State.programmeAt (s : State) (l : Lot) : List Segment := bankGet s.programmes l
/-- Write a lot's programme. -/
def State.setProgramme (s : State) (l : Lot) (es : List Segment) : State :=
  { s with programmes := bankPut s.programmes l es }

/-- A booth context. -/
def State.boothAt (s : State) (l : Lot) : BoothCtx := bankGet s.booths l
/-- Write a booth context. -/
def State.setBooth (s : State) (l : Lot) (b : BoothCtx) : State :=
  { s with booths := bankPut s.booths l b }

/-- A line context. -/
def State.lineAt (s : State) (l : Lot) : LineCtx := bankGet s.lines l
/-- Write a line context. -/
def State.setLine (s : State) (l : Lot) (c : LineCtx) : State :=
  { s with lines := bankPut s.lines l c }

/-- A channel context. -/
def State.channelAt (s : State) (l : Lot) : ChannelCtx := bankGet s.channels l
/-- Write a channel context. -/
def State.setChannel (s : State) (l : Lot) (c : ChannelCtx) : State :=
  { s with channels := bankPut s.channels l c }

/-- The order with a number, if it is in the table. -/
def State.orderAt (s : State) (n : Nat) : Option OrderRec := Table.find s.orders n
/-- Write an order. -/
def State.setOrder (s : State) (n : Nat) (o : OrderRec) : State :=
  { s with orders := Table.insert s.orders n o }
/-- Free the slot of an order. -/
def State.dropOrder (s : State) (n : Nat) : State := { s with orders := Table.erase s.orders n }

/-- An entry of the price table. -/
def State.priceAt (s : State) (item : Nat) : PriceRec := Table.getD PriceRec.fresh s.prices item
/-- Write an entry of the price table. -/
def State.setPriceRec (s : State) (item : Nat) (p : PriceRec) : State :=
  { s with prices := Table.put PriceRec.fresh s.prices item p }

/-- A kitchen station context. -/
def State.stationAt (s : State) (k : Fin 4) : StationCtx := bankGet s.stations k
/-- Write a kitchen station context. -/
def State.setStation (s : State) (k : Fin 4) (c : StationCtx) : State :=
  { s with stations := bankPut s.stations k c }

/-- Write the Office Link Port's fields. -/
def State.setOlp (s : State) (o : Olp) : State := { s with olp := o }

/-! ## Answers -/

/-- A request taken: OK with its data. -/
def okWith (d : Data) : Answer := { status := .ok, data := d }

/-- A refusal, which carries no data unless the rule gives some. -/
def refuse (st : Status) : Answer := { status := st, data := .none }

/-- R183: write a response into the slot of the office link. An unread response is discarded and the
new one carries the OVERRUN mark. -/
def giveOffice (seq : Byte) (a : Answer) (s : State) : State :=
  s.setOlp { s.olp with slot := some { overrun := s.olp.slot.isSome, seq := seq, answer := a } }

/-- An office request's step: its owner's work, then its response (R184). -/
def officeStep (seq : Byte) (owner : State → State × Answer) (s : State) : State :=
  giveOffice seq (owner s).2 (owner s).1

/-- The service loop (R44). -/
def serviceLoop : LoopId := 12

/-- R60: a service unit's request handed on, and its answer written into the unit's pending response
slot. A request that finds the slot full is not taken (log entry 7). -/
def unitStep (address : Nat) (toggle : Bool) (handheld : Option Nat)
    (owner : State → State × Answer) (s : State) : State :=
  if (s.unitAt serviceLoop address).pending.isSome then s
  else
    let r := owner s
    let u := r.1.unitAt serviceLoop address
    r.1.setUnit serviceLoop address
      { u with pending := some { toggle := toggle, handheld := handheld, answer := r.2 } }

end Sys2Proof.Machine
end

