-- ==== Sys2Proof/Machine/Operands.lean ====
section
/-! DEFINITION. The operands of commands: numbers that name a thing, which are refused outside their
range, configuration values, which are clamped, named sets, which are numbered in listed order, and
the access classes (R61, R184, R185). -/

namespace Sys2Proof.Machine

/-- Lot number 1 to 6 (R185: a lot outside its range is refused). -/
def lot? (n : Nat) : Option Lot := if h : 1 ≤ n ∧ n ≤ 6 then some ⟨n - 1, by omega⟩ else none

/-- The number of a lot or a lane. -/
def lotNumber (l : Lot) : Nat := l.val + 1

/-- Lane number 1 to 6. -/
def lane? (n : Nat) : Option Lot := lot? n

/-- Lanes 1 to 4 are entry lanes, lanes 5 and 6 exit lanes (R27). -/
def isEntryLane (i : Lot) : Bool := decide (i.val < 4)

/-- Station number 1 to 4. -/
def station? (n : Nat) : Option (Fin 4) := if h : 1 ≤ n ∧ n ≤ 4 then some ⟨n - 1, by omega⟩ else none

/-- Stall number 1 to 384. -/
def stallInRange (n : Nat) : Bool := decide (1 ≤ n) && decide (n ≤ Config.maxStall)

/-- A stall named by lot and stall number (R5, R20). -/
def stall? (lot n : Nat) : Option (Lot × Nat) :=
  if stallInRange n then (lot? lot).map fun l => (l, n) else none

/-- Loop number 0 to 12. -/
def loop? (n : Nat) : Option LoopId := if h : n < 13 then some ⟨n, h⟩ else none

/-- The highest unit address of a loop (R44). -/
def maxAddress (n : LoopId) : Nat := if n = serviceLoop then Config.serviceUnits else Config.postsPerLoop

/-- The stall behind a stall loop's address (R44, last paragraph but one); none on the service loop. -/
def stallBehind (n : LoopId) (a : Nat) : Option (Lot × Nat) :=
  if h : n.val < 12 then
    some (⟨n.val / 2, by omega⟩, if n.val % 2 = 0 then a else a + Config.postsPerLoop)
  else none

/-- The first of the two loops of a lot, 2(L−1) (R59). -/
def firstLoop (l : Lot) : LoopId := ⟨2 * l.val, by omega⟩

/-- The second of the two loops of a lot, 2(L−1)+1 (R59). -/
def secondLoop (l : Lot) : LoopId := ⟨2 * l.val + 1, by omega⟩

/-- Clamp a configuration value to the nearer bound (R185). -/
def clamp (lo hi v : Nat) : Nat := max lo (min v hi)

/-- A level word's fields lie in range (R114); outside, a request is refused OUT_OF_RANGE (R185). -/
def levelInRange (w : LevelWord) : Bool := decide (w.e ≤ 7) && decide (w.m ≤ 8191)

/-- The number of a fee class in listed order (R2). -/
def feeClass? : Nat → Option FeeClass
  | 0 => some .car
  | 1 => some .van
  | 2 => some .passholder
  | 3 => some .comp
  | _ => none

/-- HOLD 0, OPEN 1 (R7, R9). -/
def exitPolicy? : Nat → Option ExitPolicy
  | 0 => some .hold
  | 1 => some .open
  | _ => none

/-- FLUSH 0, FLOOR 1 (R128, R135). -/
def underflowPolicy? : Nat → Option Policy
  | 0 => some .flush
  | 1 => some .floor
  | _ => none

/-- R191: a lot mask, bit 0 for lot 1 to bit 5 for lot 6. -/
def maskLots (mask : Nat) : List Lot := allLots.filter fun l => mask.testBit l.val

/-- R191: the alert mask, bit 0 for OVER to bit 4 for LOSS. -/
def alertMask (mask : Nat) : Conds :=
  { hasOver := mask.testBit 0, hasUnder := mask.testBit 1, hasDivide := mask.testBit 2,
    hasClip := mask.testBit 3, hasLoss := mask.testBit 4 }

/-- The status code numbers (table under R184). -/
def statusCode : Status → Nat
  | .ok => 0
  | .frameError => 1
  | .unknownRequest => 2
  | .notPermitted => 3
  | .outOfRange => 4
  | .badState => 5
  | .noSuch => 6
  | .noVehicle => 7
  | .notOpen => 8
  | .headLimit => 9
  | .tableFull => 10
  | .tabDue => 11
  | .stallTaken => 12
  | .wrongLot => 13
  | .liveSegment => 14
  | .latched => 15
  | .lotFull => 17
  | .windowClosed => 18
  | .soldOut => 19
  | .lineLimit => 20
  | .totalLimit => 21
  | .wrongStall => 22
  | .stationFull => 23
  | .nothingEligible => 24
  | .notTop => 25

/-! ## Requests that more than one party may make -/

/-- A request about a lot from the office: a lot outside 1 to 6 is refused OUT_OF_RANGE. -/
def withLot (lot : Nat) (owner : Lot → State → State × Answer) (s : State) : State × Answer :=
  match lot? lot with
  | none => (s, refuse .outOfRange)
  | some l => owner l s

/-- A request about a stall: a lot or stall outside its range is refused OUT_OF_RANGE (R20, R26). -/
def withStall (lot n : Nat) (owner : Lot → Nat → State → State × Answer) (s : State) :
    State × Answer :=
  match stall? lot n with
  | none => (s, refuse .outOfRange)
  | some (l, k) => owner l k s

/-- A request about a kitchen station: outside 1 to 4 it is refused OUT_OF_RANGE. -/
def withStation (n : Nat) (owner : Fin 4 → State → State × Answer) (s : State) : State × Answer :=
  match station? n with
  | none => (s, refuse .outOfRange)
  | some k => owner k s

/-- A post report (R51, R184): from the office it is answered; from the stall's own post there is no
response. No other party may make it (R61). -/
def postRequest (o : Origin) (lot n : Nat) (owner : Lot → Nat → State → State × Answer)
    (s : State) : State :=
  match o with
  | .office seq => officeStep seq (withStall lot n owner) s
  | .post => (withStall lot n owner s).1
  | .terminal _ => s
  | .station _ _ => s
  | .handheld _ _ => s

/-- R41: an office request naming a lane outside 1 to 6 or of the wrong kind is refused OUT_OF_RANGE. -/
def withLane (fits : Lot → Bool) (lane : Nat) (owner : Lot → State → State × Answer)
    (s : State) : State × Answer :=
  match lane? lane with
  | none => (s, refuse .outOfRange)
  | some i => if fits i then owner i s else (s, refuse .outOfRange)

/-- R61: a lane terminal's request of a kind outside its class is refused NOT_PERMITTED. -/
def asTerminal (fits : Lot → Bool) (i : Lot) (owner : Lot → State → State × Answer)
    (s : State) : State × Answer :=
  if fits i then owner i s else (s, refuse .notPermitted)

/-- A lane request (R41): from the office, or from the lane's own terminal, unit 1 to 6 of loop 12. -/
def laneRequest (o : Origin) (fits : Lot → Bool) (lane : Nat)
    (owner : Lot → State → State × Answer) (s : State) : State :=
  match o with
  | .office seq => officeStep seq (withLane fits lane owner) s
  | .terminal t =>
    match lane? lane with
    | none => s
    | some i => unitStep (lotNumber i) t none (asTerminal fits i owner) s
  | .post => s
  | .station _ _ => s
  | .handheld _ _ => s

/-- A kitchen request: from the office (no station of its own), or from the unit of a station, units 7
to 10 of loop 12. -/
def kitchenRequest (o : Origin) (fromOffice : State → State × Answer)
    (fromStation : Fin 4 → State → State × Answer) (s : State) : State :=
  match o with
  | .office seq => officeStep seq fromOffice s
  | .station k t =>
    match station? k with
    | none => s
    | some st => unitStep (st.val + 7) t none (fromStation st) s
  | .post => s
  | .terminal _ => s
  | .handheld _ _ => s

/-- R62: a request naming a handheld outside 1 to 16 is refused OUT_OF_RANGE. -/
def asHandheld (h : Nat) (owner : State → State × Answer) (s : State) : State × Answer :=
  if 1 ≤ h ∧ h ≤ Config.maxHandheld then owner s else (s, refuse .outOfRange)

/-- The handheld bridge's unit address on loop 12. -/
def bridgeAddress : Nat := 11

/-- A handheld request: from the office, or through the handheld bridge (R62). -/
def handheldRequest (o : Origin) (fromOffice : State → State × Answer)
    (fromHandheld : Nat → State → State × Answer) (s : State) : State :=
  match o with
  | .office seq => officeStep seq fromOffice s
  | .handheld h t => unitStep bridgeAddress t (some h) (asHandheld h (fromHandheld h)) s
  | .post => s
  | .terminal _ => s
  | .station _ _ => s

end Sys2Proof.Machine
end

