-- ==== Sys2Proof/Machine/Flags.lean ====
section
/-! DEFINITION. The notice flags and the ATTN and RDY lines (R183, R186), and the condition flags with
their alerts (R116, R133). -/

namespace Sys2Proof.Machine

/-! ## Notices -/

/-- The index of a notice kind (table under R186). -/
def noticeIndex : NoticeKind → Fin 15
  | .transitOverdue => 0
  | .postOffline => 1
  | .postOnline => 2
  | .stationOffline => 3
  | .changeoverRisk => 4
  | .lateChangeover => 5
  | .screenGap => 6
  | .boothHalted => 7
  | .wrongReel => 8
  | .lineDown => 9
  | .lineUp => 10
  | .levelAlert => 11
  | .ordersUnclaimed => 12
  | .tabSaturated => 13
  | .sessionClosed => 14

/-- The site bit of a notice mask. -/
def siteBit : Nat := 0

/-- The bit of a lot in a notice mask: bits 1 to 6 for lots 1 to 6. -/
def lotBit (l : Lot) : Nat := l.val + 1

/-- The entry of a notice kind. -/
def State.noticeOf (s : State) (k : NoticeKind) : Notice := bankGet s.olp.notices (noticeIndex k)

/-- R186: raise a notice, setting the kind's pending flag and the named bit of its mask. -/
def raiseNotice (k : NoticeKind) (bit : Nat) (s : State) : State :=
  s.setOlp { s.olp with
    notices := bankPut s.olp.notices (noticeIndex k)
      { pending := true, mask := (s.noticeOf k).mask ||| BitVec.twoPow 7 bit } }

/-- Raise a notice with the bit of a lot. -/
def raiseLot (k : NoticeKind) (l : Lot) (s : State) : State := raiseNotice k (lotBit l) s

/-- Raise a notice with the site bit. -/
def raiseSite (k : NoticeKind) (s : State) : State := raiseNotice k siteBit s

/-- Raise a notice with the bit of a lot when a condition holds. -/
def raiseLotIf (c : Bool) (k : NoticeKind) (l : Lot) (s : State) : State :=
  if c then raiseLot k l s else s

/-- ATTN is asserted while any pending flag is set (R186). -/
def State.attn (s : State) : Bool := s.olp.notices.toList.any fun n => n.pending

/-- RDY is asserted while a response is unread (R183). -/
def State.rdy (s : State) : Bool := s.olp.slot.isSome

/-! ## Conditions -/

/-- The set holding one condition. -/
def Conds.single : Condition → Conds
  | .OVER => { Conds.empty with hasOver := true }
  | .UNDER => { Conds.empty with hasUnder := true }
  | .DIVIDE => { Conds.empty with hasDivide := true }
  | .CLIP => { Conds.empty with hasClip := true }
  | .LOSS => { Conds.empty with hasLoss := true }

/-- The conditions an operation of the LAU reported (R116: at most one). -/
def Conds.ofReport : Option Condition → Conds
  | none => Conds.empty
  | some c => Conds.single c

/-- Union of two condition sets. -/
def Conds.union (a b : Conds) : Conds :=
  { hasOver := a.hasOver || b.hasOver, hasUnder := a.hasUnder || b.hasUnder,
    hasDivide := a.hasDivide || b.hasDivide, hasClip := a.hasClip || b.hasClip,
    hasLoss := a.hasLoss || b.hasLoss }

/-- Intersection of two condition sets. -/
def Conds.inter (a b : Conds) : Conds :=
  { hasOver := a.hasOver && b.hasOver, hasUnder := a.hasUnder && b.hasUnder,
    hasDivide := a.hasDivide && b.hasDivide, hasClip := a.hasClip && b.hasClip,
    hasLoss := a.hasLoss && b.hasLoss }

/-- The conditions of `a` not in `b`. -/
def Conds.diff (a b : Conds) : Conds :=
  { hasOver := a.hasOver && !b.hasOver, hasUnder := a.hasUnder && !b.hasUnder,
    hasDivide := a.hasDivide && !b.hasDivide, hasClip := a.hasClip && !b.hasClip,
    hasLoss := a.hasLoss && !b.hasLoss }

/-- ANY: the set is not empty (R128). -/
def Conds.any (a : Conds) : Bool := a.hasOver || a.hasUnder || a.hasDivide || a.hasClip || a.hasLoss

/-- R133: add conditions to a lot's sticky set. When some are newly added, LEVEL_ALERT is raised once
if one of them is enabled in the mask, and the last cause takes the cause of the evaluation, if the
addition was made by one. -/
def addConditions (l : Lot) (met : Conds) (cause : Option Cause) (s : State) : State :=
  let c := s.channelAt l
  let fresh := met.diff c.conds
  let s' := s.setChannel l { c with
    conds := c.conds.union met
    lastCause := if fresh.any then cause.or c.lastCause else c.lastCause }
  raiseLotIf (fresh.inter c.mask).any .levelAlert l s'

end Sys2Proof.Machine
end

