-- ==== Sys2Proof/Machine/Level.lean ====
section
/-! DEFINITION. The Level Arithmetic Unit (R114 to R127): normalise, multiply, divide, compare, clamp
and fix. It holds no state; each operation returns its result and the condition it met. -/

namespace Sys2Proof.Machine

/-- R120: the largest word. -/
def largestWord : LevelWord := ⟨7, 8191⟩

/-- R121: the smallest normalised word. -/
def smallestWord : LevelWord := ⟨0, 2048⟩

/-- R114: the leading base-4 digit is not zero, in range. -/
def normalisedWord (w : LevelWord) : Bool :=
  decide (w.e ≤ 7) && decide (2048 ≤ w.m) && decide (w.m ≤ 8191)

/-- R117: true zero or normalised. -/
def lawfulWord (w : LevelWord) : Bool := decide (w = trueZero) || normalisedWord w

/-- R118 steps 2 to 4, from exponent and nonzero mantissa. -/
def normaliseFrom : Nat → Nat → LevelWord × Option Condition
  | 0, m => if 2048 ≤ m then (⟨0, m⟩, none) else (trueZero, some .LOSS)
  | e + 1, m => if 2048 ≤ m then (⟨e + 1, m⟩, none) else normaliseFrom e (m * 4)

/-- R118: input normalisation. -/
def normalise (w : LevelWord) : LevelWord × Option Condition :=
  if w.m = 0 then (trueZero, none) else normaliseFrom w.e w.m

/-- R120, R121: the range check of multiply and divide on the exponent formed. -/
def rangeCheck (policy : Policy) (m : Nat) (e : Int) : LevelWord × Option Condition :=
  if 7 < e then (largestWord, some .OVER)
  else if e < 0 then
    match policy with
    | .flush => (trueZero, some .UNDER)
    | .floor => (smallestWord, some .UNDER)
  else (⟨e.toNat, m⟩, none)

/-- R119: multiply, truncating, with the guard digit of step 4. -/
def multiply (policy : Policy) (x y : LevelWord) : LevelWord × Option Condition :=
  if x = trueZero ∨ y = trueZero then (trueZero, none)
  else
    let p := x.m * y.m
    if 2048 ≤ p / 8192 then rangeCheck policy (p / 8192) ((x.e : Int) + y.e - 6)
    else rangeCheck policy (p / 2048) ((x.e : Int) + y.e - 7)

/-- R122, R123: divide; no result for a true-zero divisor. -/
def divide (policy : Policy) (x y : LevelWord) : Option LevelWord × Option Condition :=
  if y = trueZero then (none, some .DIVIDE)
  else if x = trueZero then (some trueZero, none)
  else
    let r :=
      if x.m < y.m then rangeCheck policy (x.m * 8192 / y.m) ((x.e : Int) - y.e + 6)
      else rangeCheck policy (x.m * 2048 / y.m) ((x.e : Int) - y.e + 7)
    (some r.1, r.2)

/-- R124: compare. True zero has exponent and mantissa 0, so it is below every normalised word. -/
def compareLevels (a b : LevelWord) : Ordering :=
  if a.e < b.e then .lt
  else if b.e < a.e then .gt
  else if a.m < b.m then .lt
  else if b.m < a.m then .gt
  else .eq

/-- R125: clamp a word between two limits. -/
def clampLevel (x lo hi : LevelWord) : LevelWord :=
  if compareLevels x lo = .lt then lo
  else if compareLevels x hi = .gt then hi
  else x

/-- R126, R127: fix to drive code. -/
def fix (g : LevelWord) : Nat × Option Condition :=
  if g = trueZero then (0, none)
  else
    let code := g.m * 4 ^ g.e / 8192
    if Config.maxDrive < code then (Config.maxDrive, some .CLIP)
    else if code = 0 then (0, some .LOSS)
    else (code, none)

/-- R129: the first factor, by the source. -/
def segmentFactor (c : ChannelCtx) : LevelWord :=
  match c.source with
  | .projA => c.segLevel
  | .projB => c.segLevel
  | .fill => c.fill
  | .silent => trueZero

/-- R129: the fourth factor, the duck level while an announcement is active. -/
def duckFactor (c : ChannelCtx) : LevelWord := if c.announcing then c.duck else unity

/-- R130: the chain S × T, × C, × D, × K in that order, with the conditions of the four multiplies. -/
def gainChain (policy : Policy) (s t c d k : LevelWord) : LevelWord × Conds :=
  let p1 := multiply policy s t
  let p2 := multiply policy p1.1 c
  let p3 := multiply policy p2.1 d
  let p4 := multiply policy p3.1 k
  (p4.1, (((Conds.ofReport p1.2).union (Conds.ofReport p2.2)).union (Conds.ofReport p3.2)).union
    (Conds.ofReport p4.2))

end Sys2Proof.Machine
end

