-- ==== Sys2Proof/Machine/PortOps.lean ====
section
/-! DEFINITION. The Booth Line Ports' shared operations (R103 to R112): sending, issuing, staging,
acknowledging, line down and line up. -/

namespace Sys2Proof.Machine

/-- R105: the command number after `n`. -/
def nextCommandNumber (n : Nat) : Nat := (n + 1) % 256

/-- R105, R110: send a command for the first time: it takes its number and goes in flight. -/
def sendCommand (l : Lot) (cmd : BoothCmd) (s : State) : State :=
  let c := s.lineAt l
  s.setLine l { c with
    inFlight := some { cmd := cmd, number := c.nextNumber, retry := 0, deadline := Config.ackLimit }
    nextNumber := nextCommandNumber c.nextNumber
    sent := some (cmd, c.nextNumber) }

/-- R111 steps 1 to 4, and step 5's report with the block whose step met it. -/
def portGoDown (l : Lot) (met : Option Issuer) (s : State) : State :=
  let c := s.lineAt l
  raiseLot .lineDown l (s.setLine l { c with
    up := false, inFlight := none, queue := [], staged := none, lastDrive := none,
    downReport := met })

/-- R107: a MOTOR, DOWSER, SOURCE or ANNOUNCE_KEY command issued to a port. -/
def issueCommand (l : Lot) (by' : Issuer) (cmd : BoothCmd) (s : State) : State :=
  let c := s.lineAt l
  if !c.up then s
  else if c.inFlight.isNone && c.queue.isEmpty then sendCommand l cmd s
  else if c.queue.length < Config.waitingQueue then s.setLine l { c with queue := c.queue ++ [cmd] }
  else portGoDown l (some by') s

/-- R108: the port's latest drive. -/
def latestDrive (c : LineCtx) : Option Nat :=
  match c.staged with
  | some d => some d
  | none =>
    match c.inFlight with
    | some { cmd := .drive d, .. } => some d
    | _ => c.lastDrive

/-- R108: a drive code handed to the port. -/
def handDrive (l : Lot) (code : Nat) (s : State) : State :=
  let c := s.lineAt l
  if !c.up then s
  else if c.inFlight.isNone && c.queue.isEmpty then
    sendCommand l (.drive code) (s.setLine l { c with staged := none })
  else s.setLine l { c with staged := some code }

/-- R132: the drive code is handed to the port when it differs from the latest drive. -/
def offerDrive (l : Lot) (code : Nat) (s : State) : State :=
  if latestDrive (s.lineAt l) = some code then s else handDrive l code s

/-- R109: the next command after an acknowledgement: the oldest waiting, else the staged drive. -/
def sendNext (l : Lot) (s : State) : State :=
  let c := s.lineAt l
  match c.queue with
  | cmd :: rest => sendCommand l cmd (s.setLine l { c with queue := rest })
  | [] =>
    match c.staged with
    | some d => sendCommand l (.drive d) (s.setLine l { c with staged := none })
    | none => s

/-- R109: the last acknowledged drive after a command is acknowledged. -/
def acknowledgedDrive (cmd : BoothCmd) (last : Option Nat) : Option Nat :=
  match cmd with
  | .drive d => some d
  | .motor _ _ => last
  | .dowser _ _ => last
  | .source _ => last
  | .announceKey _ => last

/-- R109: an ACK on an UP line. -/
def takeAck (l : Lot) (number : Nat) (s : State) : State :=
  let c := s.lineAt l
  match c.inFlight with
  | none => s
  | some f =>
    if f.number = number then
      sendNext l (s.setLine l { c with
        inFlight := none, lastDrive := acknowledgedDrive f.cmd c.lastDrive })
    else s

/-- R110: the command in flight is sent again with the same number. -/
def resend (l : Lot) (f : InFlight) (s : State) : State :=
  let c := s.lineAt l
  s.setLine l { c with
    inFlight := some { f with retry := 1, deadline := Config.ackLimit }
    sent := some (f.cmd, f.number) }

/-- R112 steps 1 to 3: the line comes UP, SOURCE is sent and DRIVE staged. -/
def portComeUp (l : Lot) (s : State) : State :=
  let ch := s.channelAt l
  let s1 := raiseLot .lineUp l (s.setLine l { s.lineAt l with up := true })
  let s2 := issueCommand l .channel (.source ch.source) s1
  s2.setLine l { s2.lineAt l with staged := some ch.drive }

/-- R104: a frame that is not valid is dropped and counted. -/
def dropFrame (l : Lot) (s : State) : State :=
  let c := s.lineAt l
  s.setLine l { c with dropped := min (c.dropped + 1) Config.maxCount16 }

/-- R104, R106, R112: a frame from the booth unit. An invalid one is dropped; a valid one brings a DOWN
line UP first, and is then taken as on an UP line. -/
def receiveFrame (l : Lot) (valid : Bool) (take : State → State) (s : State) : State :=
  if !valid then dropFrame l s
  else if (s.lineAt l).up then take s
  else take (portComeUp l s)

end Sys2Proof.Machine
end

