-- ==== Sys2Proof/Machine/ChannelOps.lean ====
section
/-! DEFINITION. The Channel Controller's shared operations (R129 to R134): evaluation, the hand-off
from the Booth Sequencer, and the end of an announcement. -/

namespace Sys2Proof.Machine

/-- R131: one evaluation of a channel: the chain, the fix, the conditions met (with those `prior` to it
that prompted it) and the offer of the drive code. -/
def evaluate (l : Lot) (cause : Cause) (prior : Conds) (s : State) : State :=
  let c := s.channelAt l
  let g := gainChain c.policy (segmentFactor c) c.trim c.corr (duckFactor c) s.master
  let d := fix g.1
  let s1 := s.setChannel l { c with gain := g.1, drive := d.1 }
  let s2 := addConditions l ((prior.union g.2).union (Conds.ofReport d.2)) (some cause) s1
  offerDrive l d.1 s2

/-- R134 step 1: the source switch, commanded when the source changes. -/
def switchSource (l : Lot) (src : Source) (s : State) : State :=
  let c := s.channelAt l
  if c.source = src then s
  else issueCommand l .channel (.source src) (s.setChannel l { c with source := src })

/-- R134 step 2: the segment level takes the level word carried, if one is. -/
def storeSegmentLevel (l : Lot) (level : Option LevelWord) (s : State) : State :=
  match level with
  | none => s
  | some w => s.setChannel l { s.channelAt l with segLevel := w }

/-- R134: the Channel Controller takes a hand-off. -/
def handOff (l : Lot) (src : Source) (cause : Cause) (level : Option LevelWord) (s : State) : State :=
  evaluate l cause Conds.empty (storeSegmentLevel l level (switchSource l src s))

/-- R138: an announcement starts or is extended on one lot. -/
def startAnnouncement (l : Lot) (seconds : Nat) (s : State) : State :=
  let c := s.channelAt l
  if c.announcing then s.setChannel l { c with announceDeadline := some seconds }
  else
    evaluate l .duckOn Conds.empty
      (issueCommand l .channel (.announceKey true)
        (s.setChannel l { c with announcing := true, announceDeadline := some seconds }))

/-- R139: an announcement ends on one lot; nothing is done where the flag is clear. -/
def endAnnouncement (l : Lot) (s : State) : State :=
  let c := s.channelAt l
  if c.announcing then
    evaluate l .duckOff Conds.empty
      (issueCommand l .channel (.announceKey false)
        (s.setChannel l { c with announcing := false, announceDeadline := none }))
  else s

/-- R138, R139: the announcement deadline of a channel stands at zero. -/
def announcementDue (c : ChannelCtx) : Bool := c.announcing && decide (c.announceDeadline = some 0)

/-- R138, R139: the announcement deadline of a lot expires when its count stands at zero. -/
def expireAnnouncement (l : Lot) (s : State) : State :=
  if announcementDue (s.channelAt l) then endAnnouncement l s else s

/-- R140: a probe report is accepted when auto-level is set, the source is a projector and no
announcement is active. -/
def acceptsProbe (c : ChannelCtx) : Bool :=
  c.autoLevel && (decide (c.source = .projA) || decide (c.source = .projB)) && !c.announcing

/-- R141 steps 2 to 5: the new correction and the conditions of the divide and the multiply. -/
def correctedBy (c : ChannelCtx) (reading : LevelWord) : LevelWord × Conds :=
  match divide c.policy c.target reading with
  | (none, cond) => (c.corr, Conds.ofReport cond)
  | (some ratio, cond) =>
    let p := multiply c.policy c.corr ratio
    (clampLevel p.1 c.cMin c.cMax, (Conds.ofReport cond).union (Conds.ofReport p.2))

/-- R140, R141: a PROBE event taken by the Channel Controller. -/
def takeProbe (l : Lot) (word : LevelWord) (s : State) : State :=
  let c := s.channelAt l
  if acceptsProbe c then
    let n := normalise word
    let r := correctedBy c n.1
    evaluate l .probe ((Conds.ofReport n.2).union r.2) (s.setChannel l { c with corr := r.1 })
  else s

end Sys2Proof.Machine
end

