-- ==== Sys2Proof/Machine/OrderOps.lean ====
section
/-! DEFINITION. The shared operations of the Order Table and the Kitchen Dispatcher: the kitchen queue
and held list, lamps, order numbers, placement, held release, order windows, and the session's changes
and closing. -/

namespace Sys2Proof.Machine

/-! ## Stalls of passes and lamps -/

/-- A stall is bound in OCCUPIED and VACATED (R6). -/
def stallBound (st : StallRec) : Bool :=
  decide (st.state = .occupied) || decide (st.state = .vacated)

/-- The stall of a live pass, when it is PARKED (R146). -/
def stallOfTag (s : State) (tag : Nat) : Option (Lot × Nat) :=
  match s.passAt tag with
  | some p => if p.state = .parked then p.stall.map fun n => (p.lot, n) else none
  | none => none

/-- The stall of an order: the stall of its pass (R146); none for a counter order. -/
def stallOfOrder (s : State) (o : OrderRec) : Option (Lot × Nat) := o.tag.bind (stallOfTag s)

/-- R158: the lamp the orders of a tag ask for. -/
def lampOf (orders : Table OrderRec) (tag : Nat) : Lamp :=
  if orders.any fun kv => decide (kv.2.tag = some tag) && decide (kv.2.state = .ready) then .flash
  else if orders.any fun kv => decide (kv.2.tag = some tag) &&
      (decide (kv.2.state = .held) || decide (kv.2.state = .placed) || decide (kv.2.state = .inPrep))
  then .steady
  else .off

/-- R158: the lamp desired of a stall, from the orders of the pass bound to it. -/
def lampWanted (orders : Table OrderRec) (st : StallRec) : Lamp :=
  if stallBound st then
    match st.tag with
    | some t => lampOf orders t
    | none => .off
  else .off

/-- R158: recompute the lamp desired of a stall. -/
def relampStall (l : Lot) (n : Nat) (s : State) : State :=
  let st := s.stallAt l n
  s.setStall l n { st with lampDesired := lampWanted s.orders st }

/-- R158: recompute the lamp desired of the stall of an order's pass, if it has one. -/
def relamp (tag : Option Nat) (s : State) : State :=
  match tag.bind (stallOfTag s) with
  | some (l, n) => relampStall l n s
  | none => s

/-- Write a display code into a stall's pending display, over one still pending (R5). -/
def showDisplay (l : Lot) (n code : Nat) (s : State) : State :=
  s.setStall l n { s.stallAt l n with display := some code }

/-- Set or empty a stall's draft order field (R5). -/
def setDraft (l : Lot) (n : Nat) (d : Option Nat) (s : State) : State :=
  s.setStall l n { s.stallAt l n with draft := d }

/-! ## Sequences -/

/-- The value after `n` in a sequence 1 to `top` (R190). -/
def stepSequence (top n : Nat) : Nat := if top ≤ n then 1 else n + 1

/-- The first candidate from `c` on that is not used, within `fuel` further candidates (R3, R145). -/
def firstFree (used : Nat → Bool) (top : Nat) : Nat → Nat → Nat
  | 0, c => c
  | fuel + 1, c => if used c then firstFree used top fuel (stepSequence top c) else c

/-- R145: the order number the next order takes. -/
def nextOrderNumber (s : State) : Nat :=
  firstFree (fun n => (s.orderAt n).isSome) Config.maxOrderNumber Config.orderSlots s.olp.orderSeq

/-- R145: a slot of the order table is free. -/
def orderSlotFree (s : State) : Bool := decide (s.orders.length < Config.orderSlots)

/-- R145: create an order under the next order number, and move the sequence on. -/
def createOrder (o : OrderRec) (s : State) : State :=
  let n := nextOrderNumber s
  (s.setOrder n o).setOlp { s.olp with orderSeq := stepSequence Config.maxOrderNumber n }

/-- R147: the total of an order's lines. -/
def linesTotal : List OrderLine → Nat
  | [] => 0
  | ln :: rest => ln.qty * ln.price + linesTotal rest

/-! ## The kitchen queue and the held list -/

/-- Insert a number before the first it comes before, and so behind its equals: which of two orders of one
level and one placement sequence stands first the manual does not say (log entry 40, DESIGN CHOICE). -/
def insertBy (before : Nat → Nat → Bool) (n : Nat) : List Nat → List Nat
  | [] => [n]
  | m :: rest => if before n m then n :: m :: rest else m :: insertBy before n rest

/-- The level of an order, 0 where it has none. -/
def levelIn (orders : Table OrderRec) (n : Nat) : Nat :=
  match Table.find orders n with
  | some o => o.level.getD 0
  | none => 0

/-- The placement sequence of an order, 0 where it has none. -/
def seqIn (orders : Table OrderRec) (n : Nat) : Nat :=
  match Table.find orders n with
  | some o => o.seq.getD 0
  | none => 0

/-- R167: level descending, then placement sequence. -/
def queueBefore (orders : Table OrderRec) (a b : Nat) : Bool :=
  decide (levelIn orders b < levelIn orders a) ||
    (decide (levelIn orders a = levelIn orders b) && decide (seqIn orders a < seqIn orders b))

/-- R168: placement sequence ascending. -/
def seqBefore (orders : Table OrderRec) (a b : Nat) : Bool :=
  decide (seqIn orders a < seqIn orders b)

/-- R167: an order enters the kitchen queue at the place its level and sequence give. -/
def enterQueue (n : Nat) (s : State) : State :=
  { s with queue := insertBy (queueBefore s.orders) n s.queue }

/-- R168: an order enters the held list at the place its sequence gives. -/
def enterHeld (n : Nat) (s : State) : State :=
  { s with held := insertBy (seqBefore s.orders) n s.held }

/-- An order leaves the kitchen queue. -/
def leaveQueue (n : Nat) (s : State) : State := { s with queue := s.queue.filter fun m => m ≠ n }

/-- An order leaves the held list. -/
def leaveHeld (n : Nat) (s : State) : State := { s with held := s.held.filter fun m => m ≠ n }

/-- R169: a station's floor, the level of the top order or the base floor. -/
def stationFloor (s : State) (c : StationCtx) : Nat :=
  match c.stack with
  | [] => c.baseFloor
  | n :: _ => levelIn s.orders n

/-! ## Placement and release -/

/-- R157: place an order of the table HELD (level 0 by the rule that placed it) or PLACED. -/
def placeOrder (n : Nat) (held : Bool) (level : Nat) (s : State) : State :=
  match s.orderAt n with
  | none => s
  | some o =>
    let s1 := (s.setOrder n { o with
      state := if held then .held else .placed
      level := some level
      seq := some s.olp.placeSeq
      placedTime := some s.olp.clock
      lastRaise := some s.olp.clock
      draftDeadline := none }).setOlp
        { s.olp with placeSeq := stepSequence Config.maxPlacement s.olp.placeSeq }
    relamp o.tag (if held then enterHeld n s1 else enterQueue n s1)

/-- An order of the held list belongs to the lot of its pass at this moment; an untagged one to none
(R150, R168). -/
def heldOfLot (s : State) (l : Lot) (n : Nat) : Bool :=
  match (s.orderAt n).bind fun o => o.tag with
  | some t =>
    match s.passAt t with
    | some p => decide (p.lot = l)
    | none => false
  | none => false

/-- R178: one order released at a level. -/
def releaseOrder (level : Nat) (s : State) (n : Nat) : State :=
  match s.orderAt n with
  | none => s
  | some o =>
    enterQueue n (leaveHeld n (s.setOrder n { o with
      state := .placed, level := some level, lastRaise := some s.olp.clock }))

/-- R178: release a lot's held orders at a level, in placement order. -/
def releaseHeld (l : Lot) (level : Nat) (s : State) : State :=
  (s.held.filter (heldOfLot s l)).foldl (releaseOrder level) s

/-! ## Order windows -/

/-- The entry at a position of a programme; positions run from 1 (R65). -/
def entryAt (es : List Segment) (p : Nat) : Option Segment := if p = 0 then none else es[p - 1]?

/-- The kind of an entry opens a rush: SNIPE or INTERMISSION (R149). -/
def isRushEntry : Segment → Bool
  | .reel _ _ => false
  | .snipe _ _ => true
  | .intermission _ => true
  | .finish => false

/-- The booth's current entry, as the store holds it. -/
def currentEntry (s : State) (l : Lot) : Option Segment :=
  (s.boothAt l).current.bind (entryAt (s.programmeAt l))

/-- R149: the window of a lot, by the first row of the table that applies. -/
def windowDerived (s : State) (l : Lot) : Window :=
  if s.olp.session ≠ .open ∨ (s.boothAt l).state = .ended then .closed
  else
    match currentEntry s l with
    | some e => if isRushEntry e then .rush else .open
    | none => .open

/-- R59: the general-call code of a window. -/
def windowCode : Window → Nat
  | .rush => 31
  | .open => 30
  | .closed => 39

/-- R59: write a general-call code into the slots of the two loops of a lot. -/
def askGeneralCall (l : Lot) (code : Nat) (s : State) : State :=
  let s1 := s.setLoop (firstLoop l) { s.loopAt (firstLoop l) with callSlot := some code }
  s1.setLoop (secondLoop l) { s1.loopAt (secondLoop l) with callSlot := some code }

/-- R149, R150: derive a lot's window; a new one is stored, announced by general call and, at RUSH,
releases the lot's held orders at its rush level. -/
def deriveWindow (l : Lot) (s : State) : State :=
  let w := windowDerived s l
  if (s.lotAt l).window = w then s
  else
    let s1 := askGeneralCall l (windowCode w) (s.setLot l { s.lotAt l with window := w })
    if w = .rush then releaseHeld l (s.lotAt l).rushLevel s1 else s1

/-- R149, R187: a change of session state, told to the Order Table, which derives all six windows. -/
def changeSession (x : Session) (s : State) : State :=
  allLots.foldl (fun t l => deriveWindow l t) (s.setOlp { s.olp with session := x })

/-- R188: a CLOSING session with no live pass and an empty order table goes CLOSED. -/
def closeIfEmpty (s : State) : State :=
  if s.olp.session = .closing ∧ s.passes = [] ∧ s.orders = [] then
    raiseSite .sessionClosed (changeSession .closed s)
  else s

/-! ## Orders of a stall or a pass -/

/-- R154: a stall that loses its binding loses its draft, which is freed without a display. -/
def settleDraft (l : Lot) (n : Nat) (s : State) : State :=
  match (s.stallAt l n).draft with
  | some d => setDraft l n none (s.dropOrder d)
  | none => s

/-- R163: an order of the pass that is freed at its retirement. -/
def freedAtRetirement (tag : Nat) (o : OrderRec) : Bool :=
  decide (o.tag = some tag) &&
    (decide (o.state = .draft) || decide (o.state = .held) || decide (o.state = .placed))

/-- R163: an order of the pass that becomes UNCLAIMED at its retirement. -/
def unclaimedAtRetirement (tag : Nat) (o : OrderRec) : Bool :=
  decide (o.tag = some tag) && (decide (o.state = .inPrep) || decide (o.state = .ready))

/-- R163: the order is in the table and freed at the retirement. -/
def numberFreed (s : State) (tag n : Nat) : Bool :=
  match s.orderAt n with
  | some o => freedAtRetirement tag o
  | none => false

/-- R163: the Order Table acts on the orders of a pass of lot `l` being retired. -/
def retireOrders (tag : Nat) (l : Lot) (s : State) : State :=
  let s1 : State := { s with
    orders := (Table.mapV (fun _ o =>
      if unclaimedAtRetirement tag o then { o with state := .unclaimed } else o) s.orders).filter
        fun kv => !freedAtRetirement tag kv.2
    queue := s.queue.filter fun n => !numberFreed s tag n
    held := s.held.filter fun n => !numberFreed s tag n }
  let s2 :=
    match stallOfTag s tag with
    | some (sl, n) => setDraft sl n ((s.stallAt sl n).draft.filter fun d => !numberFreed s tag d) s1
    | none => s1
  raiseLotIf (s.orders.any fun kv => unclaimedAtRetirement tag kv.2) .ordersUnclaimed l s2

end Sys2Proof.Machine
end

