-- ==== Sys2Proof/Machine/BoothOps.lean ====
section
/-! DEFINITION. The Booth Sequencer's shared operations: projectors, commands, the latch, hand-offs, the
changeover, the intermission's beginning, the halt and the line down (R70, R76, R80, R81, R88 to R90,
R95, R99). -/

namespace Sys2Proof.Machine

/-! ## Projectors and positions -/

/-- The other projector. -/
def otherProj : Projector → Projector
  | .a => .b
  | .b => .a

/-- A projector's context. -/
def projOf (b : BoothCtx) : Projector → ProjCtx
  | .a => b.projA
  | .b => b.projB

/-- Write a projector's context. -/
def setProj (b : BoothCtx) (p : Projector) (x : ProjCtx) : BoothCtx :=
  match p with
  | .a => { b with projA := x }
  | .b => { b with projB := x }

/-- A projector that is THREADED, STARTING or AT_SPEED holds its entry (R79). -/
def holdsEntry (x : ProjCtx) : Bool :=
  decide (x.state = .threaded) || decide (x.state = .starting) || decide (x.state = .atSpeed)

/-- The position of an entry held by a projector (R69). -/
def heldPos (x : ProjCtx) : Option Nat := if holdsEntry x then x.pos else none

/-- The source that names a projector (R79). -/
def projSource : Projector → Source
  | .a => .projA
  | .b => .projB

/-- An entry is a REEL or a SNIPE. -/
def isReelEntry : Segment → Bool
  | .reel _ _ => true
  | .snipe _ _ => true
  | .intermission _ => false
  | .finish => false

/-- The level word of a REEL or SNIPE (R66). -/
def entryLevel : Segment → Option LevelWord
  | .reel _ w => some w
  | .snipe _ w => some w
  | .intermission _ => none
  | .finish => none

/-- The reel label of a REEL or SNIPE (R66). -/
def entryLabel : Segment → Option Nat
  | .reel n _ => some n
  | .snipe n _ => some n
  | .intermission _ => none
  | .finish => none

/-- The position of the first REEL or SNIPE of a list whose head stands at position `p`. -/
def firstReel : Nat → List Segment → Option Nat
  | _, [] => none
  | p, e :: rest => if isReelEntry e then some p else firstReel (p + 1) rest

/-- The position of the first REEL or SNIPE at or after position `p` (R76). -/
def firstReelAt (es : List Segment) (p : Nat) : Option Nat := firstReel p (es.drop (p - 1))

/-- R83, R76: the wanted position before the other projector is looked at. -/
def wantedFirst (es : List Segment) (b : BoothCtx) : Option Nat :=
  match b.state with
  | .dark => none
  | .ready => firstReelAt es 1
  | .starting => b.start.bind fun p => firstReelAt es (p + 1)
  | .halted =>
    match b.current with
    | some p => firstReelAt es (p + 1)
    | none => b.start.bind fun p => firstReelAt es p
  | .running => b.current.bind fun p => firstReelAt es (p + 1)
  | .changeoverPending => b.current.bind fun p => firstReelAt es (p + 1)
  | .intermission => b.current.bind fun p => firstReelAt es (p + 1)
  | .lateStart => b.current.bind fun p => firstReelAt es (p + 1)
  | .ended => b.current.bind fun p => firstReelAt es (p + 1)

/-- R83: the wanted position for projector `p`: when the other projector already holds the first answer,
the first REEL or SNIPE after that held position. -/
def wantedPos (es : List Segment) (b : BoothCtx) (p : Projector) : Option Nat :=
  match wantedFirst es b with
  | none => none
  | some w => if heldPos (projOf b (otherProj p)) = some w then firstReelAt es (w + 1) else some w

/-! ## Commands, hand-offs and notices -/

/-- R80: the Booth Sequencer issues a command to its port. -/
def boothIssue (l : Lot) (cmd : BoothCmd) (s : State) : State := issueCommand l .booth cmd s

/-- Rewrite a booth context. -/
def modBooth (l : Lot) (f : BoothCtx → BoothCtx) (s : State) : State := s.setBooth l (f (s.boothAt l))

/-- Give a projector a state, keeping its threaded position. -/
def putProjState (l : Lot) (p : Projector) (x : ProjState) (s : State) : State :=
  modBooth l (fun b => setProj b p { projOf b p with state := x }) s

/-- R81: the Order Table is told of a change of booth state or current position, and derives the lot's
window; when the booth has just become ENDED the lot's held orders are released at its post order level
(R150). -/
def tellOrderTable (l : Lot) (before : BoothCtx) (s : State) : State :=
  let b := s.boothAt l
  if b.state = before.state ∧ b.current = before.current then s
  else
    let s1 := deriveWindow l s
    if b.state = .ended ∧ before.state ≠ .ended then releaseHeld l (s1.lotAt l).postLevel s1 else s1

/-! ## Motors and dowsers of a stop (R95 steps 1 to 3) -/

/-- The commands that stop one projector, by its state. -/
def stopCommands (p : Projector) : ProjState → List BoothCmd
  | .onScreen => [.dowser p false, .motor p false]
  | .tailing => [.motor p false]
  | .starting => [.motor p false]
  | .atSpeed => [.motor p false]
  | .empty => []
  | .threaded => []
  | .spent => []

/-- The state a stopped projector goes to. -/
def stoppedState : ProjState → ProjState
  | .onScreen => .spent
  | .tailing => .spent
  | .starting => .threaded
  | .atSpeed => .threaded
  | .empty => .empty
  | .threaded => .threaded
  | .spent => .spent

/-- The rank of a projector state in the order of R95: on screen, then tailing, then not yet shown. -/
def stopRank : ProjState → Nat
  | .onScreen => 0
  | .tailing => 1
  | .starting => 2
  | .atSpeed => 2
  | .empty => 3
  | .threaded => 3
  | .spent => 3

/-- R95 steps 1 to 3: the commands for both projectors in order; A before B within a step (log entry
13). -/
def haltCommands (b : BoothCtx) : List BoothCmd :=
  if stopRank b.projB.state < stopRank b.projA.state then
    stopCommands .b b.projB.state ++ stopCommands .a b.projA.state
  else stopCommands .a b.projA.state ++ stopCommands .b b.projB.state

/-- R95 steps 1 to 3: the projector states that result. -/
def stopProjectors (b : BoothCtx) : BoothCtx :=
  { b with
    projA := { b.projA with state := stoppedState b.projA.state }
    projB := { b.projB with state := stoppedState b.projB.state } }

/-- Issue commands in order. -/
def boothIssueAll (l : Lot) (cmds : List BoothCmd) (s : State) : State :=
  cmds.foldl (fun t c => boothIssue l c t) s

/-- R95: the booth after a halt. -/
def haltedBooth (reason : HaltReason) (b : BoothCtx) : BoothCtx :=
  { stopProjectors b with
    state := .halted, haltReason := some reason, latched := none, late := false, gap := false,
    intermission := none, preRoll := none }

/-- R95: the halt. Under LINE_DOWN no command is issued and, as for BREAK and RUNOUT, BOOTH_HALTED is
raised; for OFFICE_HALT it is not. -/
def haltBooth (l : Lot) (reason : HaltReason) (s : State) : State :=
  let b := s.boothAt l
  let s1 := if reason = .lineDown then s else boothIssueAll l (haltCommands b) s
  let s2 := s1.setBooth l (haltedBooth reason b)
  let s3 := handOff l .fill .source none s2
  raiseLotIf (decide (reason ≠ .officeHalt)) .boothHalted l s3

/-- A booth that a line down halts (R99). -/
def runsShow : BoothState → Bool
  | .starting => true
  | .running => true
  | .changeoverPending => true
  | .intermission => true
  | .lateStart => true
  | .dark => false
  | .ready => false
  | .halted => false
  | .ended => false

/-- R99: the Booth Sequencer takes a line down. -/
def takeLineDown (l : Lot) (s : State) : State :=
  let s0 := s.setLine l { s.lineAt l with downReport := none }
  let b := s0.boothAt l
  let s1 := if runsShow b.state then haltBooth l .lineDown s0 else s0.setBooth l (stopProjectors b)
  tellOrderTable l b s1

/-- R80, R81: a step of the Booth Sequencer. Its work is done; the Order Table is told of a change of
state or current position; and a line that a command of the step took DOWN is then taken down. -/
def boothStep (l : Lot) (work : State → State) (s : State) : State :=
  let s1 := tellOrderTable l (s.boothAt l) (work s)
  if (s1.lineAt l).downReport = some .booth then takeLineDown l s1 else s1

/-! ## Latch, changeover and intermission -/

/-- The entry at the current position plus one, as the store holds it. -/
def nextEntry (s : State) (l : Lot) : Option Segment :=
  (s.boothAt l).current.bind fun c => entryAt (s.programmeAt l) (c + 1)

/-- R70: copy the entry after current into the latched copy. -/
def latchNext (l : Lot) (s : State) : State :=
  modBooth l (fun b => { b with latched := nextEntry s l }) s

/-- Projector `p` is in state `x` with the entry at current plus one. -/
def readyFor (b : BoothCtx) (p : Projector) (x : ProjState) : Bool :=
  decide ((projOf b p).state = x) && decide (b.current.isSome) &&
    decide ((projOf b p).pos = b.current.map fun c => c + 1)

/-- R88: the work of CUE_MOTOR for on-screen projector `p`: latch the entry after current and, if it is a
REEL or SNIPE, start the idle projector threaded with it, or raise CHANGEOVER_RISK. -/
def cueMotorWork (l : Lot) (p : Projector) (s : State) : State :=
  let s1 := latchNext l s
  let b := s1.boothAt l
  match b.latched with
  | none => s1
  | some e =>
    if isReelEntry e then
      if readyFor b (otherProj p) .threaded then
        modBooth l (fun b => { b with state := .changeoverPending })
          (putProjState l (otherProj p) .starting (boothIssue l (.motor (otherProj p) true) s1))
      else raiseLot .changeoverRisk l s1
    else s1

/-- R88: a CUE_CHANGE or RUNOUT that finds the latched flag clear first does the work of CUE_MOTOR. -/
def latchIfClear (l : Lot) (p : Projector) (s : State) : State :=
  if (s.boothAt l).latched.isNone then cueMotorWork l p s else s

/-- R89 steps 3 and 4: the latched entry becomes current. -/
def advance (x : BoothState) (b : BoothCtx) : BoothCtx :=
  { b with
    state := x, current := b.current.map fun c => c + 1, latched := none, late := false, gap := false }

/-- R89 steps 3 to 5: the incoming projector `q` is on screen and the latched entry becomes current. -/
def completeChange (l : Lot) (q : Projector) (s : State) : State :=
  let level := (s.boothAt l).latched.bind entryLevel
  handOff l (projSource q) .segment level (modBooth l (advance .running) s)

/-- R89 step 1: the dowser opens and the projector goes ON_SCREEN. -/
def bringOnScreen (l : Lot) (q : Projector) (s : State) : State :=
  putProjState l q .onScreen (boothIssue l (.dowser q true) s)

/-- R89 step 2: the outgoing dowser closes and its projector goes TAILING. -/
def sendTailing (l : Lot) (p : Projector) (s : State) : State :=
  putProjState l p .tailing (boothIssue l (.dowser p false) s)

/-- R90, R93: DOWSER close and MOTOR off for a projector whose reel has run out; it goes SPENT. -/
def sendSpent (l : Lot) (p : Projector) (s : State) : State :=
  putProjState l p .spent
    (boothIssue l (.motor p false) (boothIssue l (.dowser p false) s))

/-- R94, R96: MOTOR off; the projector goes SPENT. -/
def stopMotor (l : Lot) (p : Projector) (s : State) : State :=
  putProjState l p .spent (boothIssue l (.motor p false) s)

/-- R90: the intermission begins, its outgoing projector already dealt with. -/
def beginIntermission (l : Lot) (duration : Nat) (s : State) : State :=
  handOff l .fill .segment none
    (modBooth l (fun b =>
      { b with
        state := .intermission, current := b.current.map fun c => c + 1, latched := none,
        intermission := some duration, preRoll := some (duration - b.motorLead) }) s)

end Sys2Proof.Machine
end

