-- ==== Sys2Proof/Machine/BoothLines.lean ====
section
/-! DEFINITION. The Booth Line Ports' commands (R103 to R113). -/

namespace Sys2Proof.Machine

/-- R110, R111: the acknowledgement deadline expires: the command is sent again, or the line goes DOWN
and the Booth Sequencer takes the line down. -/
def expireAck (l : Lot) (s : State) : State :=
  match (s.lineAt l).inFlight with
  | none => s
  | some f => if f.retry = 0 then resend l f s else takeLineDown l (portGoDown l none s)

/-- R112: a HELLO brings a DOWN line UP, and takes an UP line DOWN and then UP again. -/
def takeHello (l : Lot) (s : State) : State :=
  if (s.lineAt l).up then portComeUp l (takeLineDown l (portGoDown l none s)) else portComeUp l s

/-- R113: the line context, with the dropped-frames counter cleared under the clear option. -/
def ownReadLine (clear : Bool) (l : Lot) (s : State) : State × Answer :=
  let c := s.lineAt l
  (if clear then s.setLine l { c with dropped := 0 } else s, okWith (.line c))

/-! ## The rows -/

/-- R109, R112: the ACK that brings a DOWN line up matches no command and is ignored. -/
def ackOn (wasUp : Bool) (l : Lot) (number : Nat) (s : State) : State :=
  if wasUp then takeAck l number s else s

/-- ACK (R109, R112). A number above 255 makes the frame invalid (R106). -/
def execAck (l : Lot) (number : Nat) (s : State) : Host.Outcome State Fault Refusal :=
  .next (receiveFrame l (decide (number ≤ 255)) (ackOn (s.lineAt l).up l number) s)
/-- ACK_DEADLINE_EXPIRY (R110). -/
def execAckDeadlineExpiry (l : Lot) (s : State) : Host.Outcome State Fault Refusal :=
  .next (expireAck l s)
/-- HELLO (R112). -/
def execHello (l : Lot) (s : State) : Host.Outcome State Fault Refusal := .next (takeHello l s)
/-- BOOTH_FRAME_DROPPED (R104). -/
def execBoothFrameDropped (l : Lot) (s : State) : Host.Outcome State Fault Refusal :=
  .next (dropFrame l s)
/-- READ_LINE (R113). -/
def execReadLine (seq : Byte) (lot : Nat) (clear : Bool) (s : State) :
    Host.Outcome State Fault Refusal :=
  .next (officeStep seq (withLot lot (ownReadLine clear)) s)

end Sys2Proof.Machine
end

