-- ==== Sys2Proof/Machine/Booths.lean ====
section
/-! DEFINITION. The Booth Sequencer's commands (R78 to R102). -/

namespace Sys2Proof.Machine

/-! ## Requests -/

/-- The projector THREADED with position `p`. -/
def threadedWith (b : BoothCtx) (p : Nat) : Option Projector :=
  if b.projA.state = .threaded ∧ b.projA.pos = some p then some .a
  else if b.projB.state = .threaded ∧ b.projB.pos = some p then some .b
  else none

/-- MOTOR on for a projector, which goes STARTING. -/
def startMotor (l : Lot) (p : Projector) (s : State) : State :=
  putProjState l p .starting (boothIssue l (.motor p true) s)

/-- R86: the work of Start Show. -/
def startShowWork (l : Lot) (p : Projector) (s : State) : State :=
  modBooth l (fun b => { b with state := .starting, start := some 1 }) (startMotor l p s)

/-- R86: Start Show. -/
def ownStartShow (l : Lot) (s : State) : State × Answer :=
  if (s.boothAt l).state ≠ .ready then (s, refuse .badState)
  else
    match threadedWith (s.boothAt l) 1 with
    | none => (s, refuse .badState)
    | some p =>
      if (s.lineAt l).up then (boothStep l (startShowWork l p) s, okWith (.projector p))
      else (s, refuse .badState)

/-- R97: the states in which Halt is taken. -/
def canHalt : BoothState → Bool
  | .running => true
  | .changeoverPending => true
  | .intermission => true
  | .lateStart => true
  | .starting => false
  | .dark => false
  | .ready => false
  | .halted => false
  | .ended => false

/-- R97: Halt. -/
def ownHalt (l : Lot) (s : State) : State × Answer :=
  if canHalt (s.boothAt l).state then
    (boothStep l (haltBooth l .officeHalt) s, okWith (.values [(s.boothAt l).current]))
  else (s, refuse .badState)

/-- R98, R81: the work of Resume; cause SOURCE is handed when a current position is removed (log entry
14). -/
def resumeWork (l : Lot) (p : Projector) (pos : Nat) (s : State) : State :=
  let s1 := modBooth l (fun b =>
    { b with state := .starting, start := some pos, current := none, haltReason := none })
    (startMotor l p s)
  if (s.boothAt l).current.isSome then handOff l .fill .source none s1 else s1

/-- R98: Resume. R98 gives no order of its checks for a position outside 1 to 24 on a booth that is not
HALTED: the range is tested first (log entry 31, DESIGN CHOICE). -/
def ownResume (pos : Nat) (l : Lot) (s : State) : State × Answer :=
  if pos < 1 ∨ Config.maxSegments < pos then (s, refuse .outOfRange)
  else if (s.boothAt l).state ≠ .halted then (s, refuse .badState)
  else
    match threadedWith (s.boothAt l) pos with
    | none => (s, refuse .badState)
    | some p =>
      if (s.lineAt l).up then (boothStep l (resumeWork l p pos) s, okWith .none)
      else (s, refuse .badState)

/-- R100: DOWSER close for a projector ON_SCREEN. -/
def clearDowser (p : Projector) (x : ProjState) : List BoothCmd :=
  if x = .onScreen then [.dowser p false] else []

/-- R100: MOTOR off for a projector whose motor runs. -/
def clearMotor (p : Projector) (x : ProjState) : List BoothCmd :=
  if x = .starting ∨ x = .atSpeed ∨ x = .onScreen ∨ x = .tailing then [.motor p false] else []

/-- R100: the commands of Clear Booth, the dowser first. The rule gives no order of the two MOTOR off
commands: A's comes before B's (log entry 13, DESIGN CHOICE). -/
def clearCommands (b : BoothCtx) : List BoothCmd :=
  clearDowser .a b.projA.state ++ clearDowser .b b.projB.state ++
    clearMotor .a b.projA.state ++ clearMotor .b b.projB.state

/-- R100: the work of Clear Booth. -/
def clearBoothWork (l : Lot) (s : State) : State :=
  let b := s.boothAt l
  handOff l .silent .source none
    ((boothIssueAll l (clearCommands b) s).setBooth l { BoothCtx.fresh with motorLead := b.motorLead })

/-- R100: Clear Booth. -/
def ownClearBooth (l : Lot) (s : State) : State × Answer :=
  (boothStep l (clearBoothWork l) s, okWith .none)

/-- R82: clamp and store a motor lead. -/
def ownSetMotorLead (seconds : Nat) (l : Lot) (s : State) : State × Answer :=
  let v := clamp Config.motorLeadMin Config.motorLeadMax seconds
  (s.setBooth l { s.boothAt l with motorLead := v }, okWith (.values [some v]))

/-- R102: every field of a booth context. -/
def ownReadBooth (l : Lot) (s : State) : State × Answer := (s, okWith (.booth (s.boothAt l)))

/-! ## Threading -/

/-- R84: a matched THREADED starts the motor at once. -/
def startsAtOnce (b : BoothCtx) (w : Nat) : Bool :=
  (decide (b.state = .running) || decide (b.state = .intermission) || decide (b.state = .lateStart)) &&
    (b.latched.map isReelEntry).getD false && decide ((b.current.map fun c => c + 1) = some w)

/-- R84: RUNNING goes to CHANGEOVER_PENDING when the motor is started at once. -/
def afterLateThread : BoothState → BoothState
  | .running => .changeoverPending
  | .intermission => .intermission
  | .lateStart => .lateStart
  | .dark => .dark
  | .ready => .ready
  | .starting => .starting
  | .changeoverPending => .changeoverPending
  | .halted => .halted
  | .ended => .ended

/-- R83, R84: a match threads the projector at position `w`. -/
def threadAt (l : Lot) (p : Projector) (w : Nat) (s : State) : State :=
  let b := s.boothAt l
  let s1 := modBooth l (fun b => setProj b p { state := .threaded, pos := some w }) s
  if startsAtOnce b w then
    modBooth l (fun b => { b with state := afterLateThread b.state }) (startMotor l p s1)
  else s1

/-- R83: the work of THREADED. -/
def threadedWork (l : Lot) (p : Projector) (label : Nat) (s : State) : State :=
  let b := s.boothAt l
  let es := s.programmeAt l
  if (projOf b p).state ≠ .empty then s
  else
    match wantedPos es b p with
    | none => raiseLot .wrongReel l s
    | some w =>
      if (entryAt es w).bind entryLabel = some label then threadAt l p w s
      else raiseLot .wrongReel l s

/-- R85: the work of UNLOADED. -/
def unloadedWork (l : Lot) (p : Projector) (s : State) : State :=
  let x := (projOf (s.boothAt l) p).state
  if x = .spent ∨ x = .threaded then modBooth l (fun b => setProj b p ProjCtx.fresh) s else s

/-! ## Motor up, cues, runout and break -/

/-- R87, first row: the starting projector comes on screen with the entry at the start position. -/
def beginShow (l : Lot) (p : Projector) (s : State) : State :=
  let level := (s.boothAt l).start.bind fun q => (entryAt (s.programmeAt l) q).bind entryLevel
  handOff l (projSource p) .segment level
    (modBooth l (fun b => { b with state := .running, current := b.start, start := none })
      (bringOnScreen l p s))

/-- R87, third row: the late changeover. -/
def lateChangeover (l : Lot) (p : Projector) (s : State) : State :=
  let gap := (s.boothAt l).gap
  let s1 := bringOnScreen l p s
  let s2 := if gap then s1 else sendTailing l (otherProj p) s1
  raiseLotIf gap .screenGap l (raiseLot .lateChangeover l (completeChange l p s2))

/-- R87: the booth acts on a projector that has come to speed. -/
def motorUpAction (l : Lot) (p : Projector) (s : State) : State :=
  let b := s.boothAt l
  match b.state with
  | .starting => beginShow l p s
  | .changeoverPending => if b.late || b.gap then lateChangeover l p s else s
  | .lateStart => raiseLot .lateChangeover l (completeChange l p (bringOnScreen l p s))
  | .intermission => s
  | .dark => s
  | .ready => s
  | .running => s
  | .halted => s
  | .ended => s

/-- R87: the work of MOTOR_UP. -/
def motorUpWork (l : Lot) (p : Projector) (s : State) : State :=
  if (projOf (s.boothAt l) p).state = .starting then
    motorUpAction l p (putProjState l p .atSpeed s)
  else s

/-- R88: the work of CUE_MOTOR. -/
def cueMotorEvent (l : Lot) (p : Projector) (s : State) : State :=
  let b := s.boothAt l
  if (projOf b p).state = .onScreen ∧ b.latched.isNone then cueMotorWork l p s else s

/-- R89: CUE_CHANGE with the latched entry a REEL or SNIPE. -/
def cueChangeReel (l : Lot) (p : Projector) (s : State) : State :=
  let b := s.boothAt l
  let q := otherProj p
  if readyFor b q .atSpeed then completeChange l q (sendTailing l p (bringOnScreen l q s))
  else if readyFor b q .starting then modBooth l (fun b => { b with late := true }) s
  else raiseLot .changeoverRisk l (modBooth l (fun b => { b with late := true }) s)

/-- R89, R90: the work of CUE_CHANGE. -/
def cueChangeWork (l : Lot) (p : Projector) (s : State) : State :=
  let b := s.boothAt l
  if (projOf b p).state = .onScreen ∧ b.late = false then
    let s1 := latchIfClear l p s
    match (s1.boothAt l).latched with
    | some (.reel _ _) => cueChangeReel l p s1
    | some (.snipe _ _) => cueChangeReel l p s1
    | some (.intermission d) => beginIntermission l d (sendTailing l p s1)
    | some .finish => s1
    | none => s1
  else s

/-- R93, first row: the last reel has run out and the booth is ENDED. -/
def endShow (l : Lot) (p : Projector) (s : State) : State :=
  handOff l .silent .segment none (modBooth l (advance .ended) (sendSpent l p s))

/-- R93: RUNOUT with the latched entry a REEL or SNIPE. -/
def runoutReel (l : Lot) (p : Projector) (s : State) : State :=
  let b := s.boothAt l
  let q := otherProj p
  if readyFor b q .atSpeed then
    raiseLot .lateChangeover l (completeChange l q (sendSpent l p (bringOnScreen l q s)))
  else if readyFor b q .starting then
    handOff l .fill .source none (modBooth l (fun b => { b with gap := true }) (sendSpent l p s))
  else raiseLot .screenGap l (haltBooth l .runout s)

/-- R93: RUNOUT from the ON_SCREEN projector. -/
def runoutOnScreen (l : Lot) (p : Projector) (s : State) : State :=
  let s1 := latchIfClear l p s
  match (s1.boothAt l).latched with
  | some (.reel _ _) => runoutReel l p s1
  | some (.snipe _ _) => runoutReel l p s1
  | some (.intermission d) => beginIntermission l d (sendSpent l p s1)
  | some .finish => endShow l p s1
  | none => s1

/-- R93, R94: the work of RUNOUT. -/
def runoutWork (l : Lot) (p : Projector) (s : State) : State :=
  match (projOf (s.boothAt l) p).state with
  | .onScreen => runoutOnScreen l p s
  | .tailing => stopMotor l p s
  | .empty => s
  | .threaded => s
  | .starting => s
  | .atSpeed => s
  | .spent => s

/-- R96, third and fifth rows: the broken projector is stopped and CHANGEOVER_RISK raised. -/
def loseIncoming (l : Lot) (p : Projector) (s : State) : State :=
  raiseLot .changeoverRisk l (stopMotor l p s)

/-- R96: BREAK of a projector STARTING. -/
def breakStarting (l : Lot) (p : Projector) (s : State) : State :=
  let b := s.boothAt l
  match b.state with
  | .starting => haltBooth l .filmBreak (stopMotor l p s)
  | .changeoverPending =>
    if b.gap then haltBooth l .filmBreak (stopMotor l p s)
    else modBooth l (fun b => { b with state := .running }) (loseIncoming l p s)
  | .intermission => loseIncoming l p s
  | .lateStart => loseIncoming l p s
  | .dark => s
  | .ready => s
  | .running => s
  | .halted => s
  | .ended => s

/-- R96: BREAK of a projector AT_SPEED. -/
def breakAtSpeed (l : Lot) (p : Projector) (s : State) : State :=
  let b := s.boothAt l
  match b.state with
  | .changeoverPending =>
    if b.gap then s else modBooth l (fun b => { b with state := .running }) (loseIncoming l p s)
  | .intermission => loseIncoming l p s
  | .lateStart => loseIncoming l p s
  | .starting => s
  | .dark => s
  | .ready => s
  | .running => s
  | .halted => s
  | .ended => s

/-- R96: the work of BREAK. -/
def breakWork (l : Lot) (p : Projector) (s : State) : State :=
  let b := s.boothAt l
  match (projOf b p).state with
  | .onScreen =>
    if b.state = .running ∨ b.state = .changeoverPending then haltBooth l .filmBreak s else s
  | .starting => breakStarting l p s
  | .atSpeed => breakAtSpeed l p s
  | .tailing => stopMotor l p s
  | .empty => s
  | .threaded => s
  | .spent => s

/-! ## Deadlines -/

/-- R91: the pre-roll starts the projector threaded with the latched entry, or raises
CHANGEOVER_RISK. -/
def preRollStart (l : Lot) (s : State) : State :=
  let b := s.boothAt l
  match (b.current.map fun c => c + 1).bind (threadedWith b) with
  | some p => startMotor l p s
  | none => raiseLot .changeoverRisk l s

/-- R78: the pre-roll deadline of a booth stands at zero. -/
def preRollDue (b : BoothCtx) : Bool := decide (b.state = .intermission) && decide (b.preRoll = some 0)

/-- R91: the work at the pre-roll expiry. -/
def preRollWork (l : Lot) (s : State) : State :=
  preRollStart l (latchNext l (modBooth l (fun b => { b with preRoll := none }) s))

/-- R78, R91: the pre-roll deadline expires when its count stands at zero. -/
def expirePreRoll (l : Lot) (s : State) : State :=
  if preRollDue (s.boothAt l) then boothStep l (preRollWork l) s else s

/-- R92: the projector AT_SPEED that holds the latched entry. -/
def incomingAtSpeed (b : BoothCtx) : Option Projector :=
  if b.latched.isSome ∧ readyFor b .a .atSpeed = true then some .a
  else if b.latched.isSome ∧ readyFor b .b .atSpeed = true then some .b
  else none

/-- R78: the intermission deadline of a booth stands at zero. It comes after the pre-roll expiry (log
entry 20). -/
def intermissionDue (b : BoothCtx) : Bool :=
  decide (b.state = .intermission) && decide (b.intermission = some 0) && b.preRoll.isNone

/-- R92: the work at the intermission expiry. -/
def intermissionWork (l : Lot) (s : State) : State :=
  let s1 := modBooth l (fun b => { b with intermission := none }) s
  match incomingAtSpeed (s.boothAt l) with
  | some p => completeChange l p (bringOnScreen l p s1)
  | none => modBooth l (fun b => { b with state := .lateStart }) s1

/-- R78, R92: the intermission deadline expires when its count stands at zero. -/
def expireIntermission (l : Lot) (s : State) : State :=
  if intermissionDue (s.boothAt l) then boothStep l (intermissionWork l) s else s

/-! ## The rows -/

/-- START_SHOW (R86). -/
def execStartShow (seq : Byte) (lot : Nat) (s : State) : Host.Outcome State Fault Refusal :=
  .next (officeStep seq (withLot lot ownStartShow) s)
/-- HALT (R97). -/
def execHalt (seq : Byte) (lot : Nat) (s : State) : Host.Outcome State Fault Refusal :=
  .next (officeStep seq (withLot lot ownHalt) s)
/-- RESUME (R98). -/
def execResume (seq : Byte) (lot pos : Nat) (s : State) : Host.Outcome State Fault Refusal :=
  .next (officeStep seq (withLot lot (ownResume pos)) s)
/-- CLEAR_BOOTH (R100). -/
def execClearBooth (seq : Byte) (lot : Nat) (s : State) : Host.Outcome State Fault Refusal :=
  .next (officeStep seq (withLot lot ownClearBooth) s)
/-- SET_MOTOR_LEAD (R82). -/
def execSetMotorLead (seq : Byte) (lot seconds : Nat) (s : State) :
    Host.Outcome State Fault Refusal :=
  .next (officeStep seq (withLot lot (ownSetMotorLead seconds)) s)
/-- READ_BOOTH (R102). -/
def execReadBooth (seq : Byte) (lot : Nat) (s : State) : Host.Outcome State Fault Refusal :=
  .next (officeStep seq (withLot lot ownReadBooth) s)
/-- THREADED (R83, R84). A label of 0 or above 999 makes the frame invalid (R106). -/
def execThreaded (l : Lot) (p : Projector) (label : Nat) (s : State) :
    Host.Outcome State Fault Refusal :=
  .next (receiveFrame l (decide (1 ≤ label) && decide (label ≤ Config.maxLabel))
    (boothStep l (threadedWork l p label)) s)
/-- UNLOADED (R85). -/
def execUnloaded (l : Lot) (p : Projector) (s : State) : Host.Outcome State Fault Refusal :=
  .next (receiveFrame l true (boothStep l (unloadedWork l p)) s)
/-- MOTOR_UP (R87). -/
def execMotorUp (l : Lot) (p : Projector) (s : State) : Host.Outcome State Fault Refusal :=
  .next (receiveFrame l true (boothStep l (motorUpWork l p)) s)
/-- CUE_MOTOR (R88). -/
def execCueMotor (l : Lot) (p : Projector) (s : State) : Host.Outcome State Fault Refusal :=
  .next (receiveFrame l true (boothStep l (cueMotorEvent l p)) s)
/-- CUE_CHANGE (R89, R90). -/
def execCueChange (l : Lot) (p : Projector) (s : State) : Host.Outcome State Fault Refusal :=
  .next (receiveFrame l true (boothStep l (cueChangeWork l p)) s)
/-- RUNOUT (R93, R94). -/
def execRunout (l : Lot) (p : Projector) (s : State) : Host.Outcome State Fault Refusal :=
  .next (receiveFrame l true (boothStep l (runoutWork l p)) s)
/-- BREAK (R96). -/
def execFilmBreak (l : Lot) (p : Projector) (s : State) : Host.Outcome State Fault Refusal :=
  .next (receiveFrame l true (boothStep l (breakWork l p)) s)
/-- PRE_ROLL_EXPIRY (R91). -/
def execPreRollExpiry (l : Lot) (s : State) : Host.Outcome State Fault Refusal :=
  .next (expirePreRoll l s)
/-- INTERMISSION_EXPIRY (R92). -/
def execIntermissionExpiry (l : Lot) (s : State) : Host.Outcome State Fault Refusal :=
  .next (expireIntermission l s)
/-- BOOTH_LINE_DOWN (R99), taken when the line is DOWN or a report of its going down waits (log
entry 6). -/
def execBoothLineDown (l : Lot) (s : State) : Host.Outcome State Fault Refusal :=
  .next (if (s.lineAt l).up = false ∨ (s.lineAt l).downReport.isSome then takeLineDown l s else s)

end Sys2Proof.Machine
end

