-- ==== Sys2Proof/Machine/Channels.lean ====
section
/-! DEFINITION. The Channel Controller's commands (R128 to R144). -/

namespace Sys2Proof.Machine

/-! ## Office writes -/

/-- R135, R185: a level word carried by a request is normalised, and a word whose fields lie outside
their ranges is refused OUT_OF_RANGE (log entry 27). -/
def withLevel (word : LevelWord) (owner : LevelWord → Conds → State → State × Answer) (s : State) :
    State × Answer :=
  if levelInRange word then owner (normalise word).1 (Conds.ofReport (normalise word).2) s
  else (s, refuse .outOfRange)

/-- R135: Set Trim. -/
def ownSetTrim (word : LevelWord) (l : Lot) (s : State) : State × Answer :=
  withLevel word (fun w lost s =>
    (evaluate l .trim lost (s.setChannel l { s.channelAt l with trim := w }), okWith (.word w))) s

/-- R135: Set Correction. -/
def ownSetCorrection (word : LevelWord) (l : Lot) (s : State) : State × Answer :=
  withLevel word (fun w lost s =>
    let c := s.channelAt l
    let v := clampLevel w c.cMin c.cMax
    (evaluate l .limits lost (s.setChannel l { c with corr := v }), okWith (.word v))) s

/-- R135: Set Fill Level. -/
def ownSetFillLevel (word : LevelWord) (l : Lot) (s : State) : State × Answer :=
  withLevel word (fun w lost s =>
    (evaluate l .source lost (s.setChannel l { s.channelAt l with fill := w }), okWith (.word w))) s

/-- R135: Set Duck Level. -/
def ownSetDuckLevel (word : LevelWord) (l : Lot) (s : State) : State × Answer :=
  withLevel word (fun w lost s =>
    (evaluate l .duckOn lost (s.setChannel l { s.channelAt l with duck := w }), okWith (.word w))) s

/-- R135: Set Target, which evaluates nothing. -/
def ownSetTarget (word : LevelWord) (l : Lot) (s : State) : State × Answer :=
  withLevel word (fun w lost s =>
    (addConditions l lost none (s.setChannel l { s.channelAt l with target := w }),
      okWith (.word w))) s

/-- R135: Set Auto-Level. -/
def ownSetAutoLevel (enable : Bool) (l : Lot) (s : State) : State × Answer :=
  (s.setChannel l { s.channelAt l with autoLevel := enable }, okWith .none)

/-- R135: Set Underflow Policy. -/
def ownSetUnderflowPolicy (code : Nat) (l : Lot) (s : State) : State × Answer :=
  match underflowPolicy? code with
  | none => (s, refuse .outOfRange)
  | some p => (s.setChannel l { s.channelAt l with policy := p }, okWith .none)

/-- R136: Set Correction Limits. -/
def ownSetCorrectionLimits (lower upper : LevelWord) (l : Lot) (s : State) : State × Answer :=
  withLevel lower (fun lo lost1 s =>
    withLevel upper (fun hi lost2 s =>
      if compareLevels lo hi = .gt then (s, refuse .outOfRange)
      else
        let c := s.channelAt l
        let v := clampLevel c.corr lo hi
        (evaluate l .limits (lost1.union lost2)
          (s.setChannel l { c with cMin := lo, cMax := hi, corr := v }),
          okWith (.words lo hi v))) s) s

/-- R137: Set Master evaluates all six channels, lot 1 to lot 6. -/
def ownSetMaster (word : LevelWord) (s : State) : State × Answer :=
  withLevel word (fun w lost s =>
    (allLots.foldl (fun t l => evaluate l .master lost t) { s with master := w },
      okWith (.word w))) s

/-! ## Announcements -/

/-- R138: Announce. -/
def ownAnnounce (mask duration : Nat) (s : State) : State × Answer :=
  if (maskLots mask).isEmpty then (s, refuse .outOfRange)
  else
    let v := clamp Config.announceMin Config.announceMax duration
    ((maskLots mask).foldl (fun t l => startAnnouncement l v t) s, okWith (.values [some v]))

/-- R139: Announce End. -/
def ownAnnounceEnd (mask : Nat) (s : State) : State × Answer :=
  if (maskLots mask).isEmpty then (s, refuse .outOfRange)
  else ((maskLots mask).foldl (fun t l => endAnnouncement l t) s, okWith .none)

/-! ## Clearing and reading -/

/-- R143: Set Alert Mask. -/
def ownSetAlertMask (mask : Nat) (l : Lot) (s : State) : State × Answer :=
  (s.setChannel l { s.channelAt l with mask := alertMask mask }, okWith .none)

/-- R143: Clear Conditions answers the set as it stood. -/
def ownClearConditions (l : Lot) (s : State) : State × Answer :=
  let c := s.channelAt l
  (s.setChannel l { c with conds := Conds.empty, lastCause := none }, okWith (.conds c.conds))

/-- R144: every field of a channel context, ANY and the site master. -/
def ownReadChannel (l : Lot) (s : State) : State × Answer :=
  let c := s.channelAt l
  (s, okWith (.channel c c.conds.any s.master))

/-! ## The rows -/

/-- PROBE (R141). A word whose fields lie outside their ranges makes the frame invalid (R104). -/
def execProbe (l : Lot) (word : LevelWord) (s : State) : Host.Outcome State Fault Refusal :=
  .next (receiveFrame l (levelInRange word) (takeProbe l word) s)
/-- SET_TRIM (R135). -/
def execSetTrim (seq : Byte) (lot : Nat) (word : LevelWord) (s : State) :
    Host.Outcome State Fault Refusal :=
  .next (officeStep seq (withLot lot (ownSetTrim word)) s)
/-- SET_CORRECTION (R135). -/
def execSetCorrection (seq : Byte) (lot : Nat) (word : LevelWord) (s : State) :
    Host.Outcome State Fault Refusal :=
  .next (officeStep seq (withLot lot (ownSetCorrection word)) s)
/-- SET_CORRECTION_LIMITS (R136). -/
def execSetCorrectionLimits (seq : Byte) (lot : Nat) (lower upper : LevelWord) (s : State) :
    Host.Outcome State Fault Refusal :=
  .next (officeStep seq (withLot lot (ownSetCorrectionLimits lower upper)) s)
/-- SET_FILL_LEVEL (R135). -/
def execSetFillLevel (seq : Byte) (lot : Nat) (word : LevelWord) (s : State) :
    Host.Outcome State Fault Refusal :=
  .next (officeStep seq (withLot lot (ownSetFillLevel word)) s)
/-- SET_DUCK_LEVEL (R135). -/
def execSetDuckLevel (seq : Byte) (lot : Nat) (word : LevelWord) (s : State) :
    Host.Outcome State Fault Refusal :=
  .next (officeStep seq (withLot lot (ownSetDuckLevel word)) s)
/-- SET_TARGET (R135). -/
def execSetTarget (seq : Byte) (lot : Nat) (word : LevelWord) (s : State) :
    Host.Outcome State Fault Refusal :=
  .next (officeStep seq (withLot lot (ownSetTarget word)) s)
/-- SET_AUTO_LEVEL (R135). -/
def execSetAutoLevel (seq : Byte) (lot : Nat) (enable : Bool) (s : State) :
    Host.Outcome State Fault Refusal :=
  .next (officeStep seq (withLot lot (ownSetAutoLevel enable)) s)
/-- SET_UNDERFLOW_POLICY (R135). -/
def execSetUnderflowPolicy (seq : Byte) (lot code : Nat) (s : State) :
    Host.Outcome State Fault Refusal :=
  .next (officeStep seq (withLot lot (ownSetUnderflowPolicy code)) s)
/-- SET_MASTER (R137). -/
def execSetMaster (seq : Byte) (word : LevelWord) (s : State) : Host.Outcome State Fault Refusal :=
  .next (officeStep seq (ownSetMaster word) s)
/-- ANNOUNCE (R138). -/
def execAnnounce (seq : Byte) (mask duration : Nat) (s : State) :
    Host.Outcome State Fault Refusal :=
  .next (officeStep seq (ownAnnounce mask duration) s)
/-- ANNOUNCE_END (R139). -/
def execAnnounceEnd (seq : Byte) (mask : Nat) (s : State) : Host.Outcome State Fault Refusal :=
  .next (officeStep seq (ownAnnounceEnd mask) s)
/-- ANNOUNCEMENT_EXPIRY (R139). -/
def execAnnouncementExpiry (l : Lot) (s : State) : Host.Outcome State Fault Refusal :=
  .next (expireAnnouncement l s)
/-- SET_ALERT_MASK (R143). -/
def execSetAlertMask (seq : Byte) (lot mask : Nat) (s : State) : Host.Outcome State Fault Refusal :=
  .next (officeStep seq (withLot lot (ownSetAlertMask mask)) s)
/-- CLEAR_CONDITIONS (R143). -/
def execClearConditions (seq : Byte) (lot : Nat) (s : State) : Host.Outcome State Fault Refusal :=
  .next (officeStep seq (withLot lot ownClearConditions) s)
/-- READ_CHANNEL (R144). -/
def execReadChannel (seq : Byte) (lot : Nat) (s : State) : Host.Outcome State Fault Refusal :=
  .next (officeStep seq (withLot lot ownReadChannel) s)

end Sys2Proof.Machine
end

