-- ==== Sys2Proof/Machine/LotOps.lean ====
section
/-! DEFINITION. The Lot Register's shared operations: issuing tags, binding and unbinding stalls, the
lot transfer, the tab and the retirement of a pass (R3, R4, R13 to R16, R21, R22). -/

namespace Sys2Proof.Machine

/-- R3: the tag the next pass takes. -/
def nextTag (s : State) : Nat :=
  firstFree (fun t => (s.passAt t).isSome) Config.maxTag 2304 s.olp.tagSeq

/-- R3: create a pass IN_LANE; the lot's inside rises by one and its heads by the party. -/
def createPass (l : Lot) (fee : FeeClass) (party lane : Nat) (s : State) : State :=
  let t := nextTag s
  let r := s.lotAt l
  let p : PassRec :=
    { state := .inLane, lot := l, fee := fee, party := party, lane := some lane, stall := none,
      admitTime := s.olp.clock, transit := none, overdue := false, tab := 0 }
  ((s.setPass t p).setOlp { s.olp with tagSeq := stepSequence Config.maxTag t }).setLot l
    { r with inside := r.inside + 1, heads := r.heads + party }

/-- R4: the live pass with this tag is IN_LANE at this lane. -/
def passInLane (s : State) (tag lane : Nat) : Option PassRec :=
  match s.passAt tag with
  | some p => if p.state = .inLane ∧ p.lane = some lane then some p else none
  | none => none

/-- R7, R32: the admitted counter of a fee class rises by one, stopping at 65,535. -/
def countAdmitted (fee : FeeClass) (r : LotRec) : LotRec :=
  match fee with
  | .car => { r with admittedCar := min (r.admittedCar + 1) Config.maxCount16 }
  | .van => { r with admittedVan := min (r.admittedVan + 1) Config.maxCount16 }
  | .passholder => { r with admittedPassholder := min (r.admittedPassholder + 1) Config.maxCount16 }
  | .comp => { r with admittedComp := min (r.admittedComp + 1) Config.maxCount16 }

/-- R4: a pass goes IN_TRANSIT with its transit deadline, losing its lane and its stall field. -/
def toTransit (limit : Nat) (p : PassRec) : PassRec :=
  { p with state := .inTransit, lane := none, stall := none, transit := some limit }

/-- R6, R19, R22: a stall loses its binding. It goes FREE without tag or grace, the lot's parked falls by
one, its draft is settled (R154) and its lamp recomputed to OFF. -/
def unbindStall (l : Lot) (n : Nat) (s : State) : State :=
  let s1 := s.setStall l n { s.stallAt l n with state := .free, tag := none, grace := none }
  let s2 := s1.setLot l { s1.lotAt l with parked := (s1.lotAt l).parked - 1 }
  relampStall l n (settleDraft l n s2)

/-- R13: bind a stall and a live pass `p` of its lot. -/
def bindStall (l : Lot) (n tag : Nat) (p : PassRec) (s : State) : State :=
  let s1 := s.setStall l n { s.stallAt l n with state := .occupied, tag := some tag, grace := none }
  let s2 := s1.setPass tag { p with
    state := .parked, stall := some n, transit := none, overdue := false }
  let s3 := s2.setLot l { s2.lotAt l with parked := (s2.lotAt l).parked + 1 }
  relampStall l n s3

/-- R15: a lot transfer into `l` is allowed. -/
def transferAllowed (s : State) (l : Lot) (party : Nat) : Bool :=
  let r := s.lotAt l
  decide (r.inside < r.capacity) && decide (r.heads + party ≤ r.headLimit)

/-- R15: inside and heads move from the old lot to the new one. -/
def transferCounts (old new : Lot) (party : Nat) (s : State) : State :=
  let ro := s.lotAt old
  let s1 := s.setLot old { ro with inside := ro.inside - 1, heads := ro.heads - party }
  let rn := s1.lotAt new
  s1.setLot new { rn with inside := rn.inside + 1, heads := rn.heads + party }

/-- R21: the tab after a charge. -/
def chargedTab (tab amount : Nat) : Nat := min (tab + amount) Config.maxTab

/-- R21: charge a live pass; beyond 999,999 the tab saturates and TAB_SATURATED is raised. A sum of exactly
999,999 does not raise it, as R21 says; that R159's "when the tab meets 999,999" is read by R21 is log
entry 36 (DEDUCED). -/
def chargeTab (tag amount : Nat) (s : State) : State :=
  match s.passAt tag with
  | some p =>
    raiseLotIf (decide (Config.maxTab < p.tab + amount)) .tabSaturated p.lot
      (s.setPass tag { p with tab := chargedTab p.tab amount })
  | none => s

/-- R22 steps 2 to 5: free the stall, write off the tab, lower inside and heads, free the slot. -/
def retireCore (tag : Nat) (p : PassRec) (s : State) : State :=
  let s1 :=
    match p.state, p.stall with
    | .parked, some n => unbindStall p.lot n s
    | .parked, none => s
    | .inLane, _ => s
    | .inTransit, _ => s
  let r := s1.lotAt p.lot
  (s1.setLot p.lot { r with
    unsettled := min (r.unsettled + p.tab) Config.maxUnsettled
    inside := r.inside - 1
    heads := r.heads - p.party }).dropPass tag

/-- R22: retire a live pass other than by Force Close. -/
def retirePass (tag : Nat) (p : PassRec) (s : State) : State :=
  closeIfEmpty (retireCore tag p (retireOrders tag p.lot s))

end Sys2Proof.Machine
end

