-- ==== Sys2Proof/Machine/LotRegister.lean ====
section
/-! DEFINITION. The Lot Register's commands (R8 to R26). `own…` is the owner's step with its answer;
`exec…` is the row's meaning. -/

namespace Sys2Proof.Machine

/-! ## Configuration -/

/-- R8: clamp and store a capacity, refused below the inside counter. -/
def ownSetCapacity (v : Nat) (l : Lot) (s : State) : State × Answer :=
  let r := s.lotAt l
  let v' := clamp 0 Config.maxCapacity v
  if v' < r.inside then (s, refuse .outOfRange)
  else (s.setLot l { r with capacity := v' }, okWith (.values [some v']))

/-- R8: clamp and store a head limit, refused below the heads counter. -/
def ownSetHeadLimit (v : Nat) (l : Lot) (s : State) : State × Answer :=
  let r := s.lotAt l
  let v' := clamp 0 Config.maxHeadLimit v
  if v' < r.heads then (s, refuse .outOfRange)
  else (s.setLot l { r with headLimit := v' }, okWith (.values [some v']))

/-- R9: HOLD or OPEN. Another code is refused (log entry 8). -/
def ownSetExitPolicy (code : Nat) (l : Lot) (s : State) : State × Answer :=
  match exitPolicy? code with
  | none => (s, refuse .outOfRange)
  | some p => (s.setLot l { s.lotAt l with policy := p }, okWith .none)

/-- R9: any of the three levels, each clamped. The response reports all three stored levels, those left out
too, and with none present it is taken and writes nothing (log entry 34, DESIGN CHOICE). -/
def ownSetLotLevels (post hand rush : Option Nat) (l : Lot) (s : State) : State × Answer :=
  let r := s.lotAt l
  let r' := { r with
    postLevel := (post.map (clamp 1 6)).getD r.postLevel
    handLevel := (hand.map (clamp 1 6)).getD r.handLevel
    rushLevel := (rush.map (clamp 1 7)).getD r.rushLevel }
  (s.setLot l r', okWith (.values [some r'.postLevel, some r'.handLevel, some r'.rushLevel]))

/-- R17: either limit, or both, each clamped. The response reports both stored limits, one left out too, and
with neither present it is taken and writes nothing (log entry 34, DESIGN CHOICE). -/
def ownSetTimers (transit grace : Option Nat) (s : State) : State × Answer :=
  let t := (transit.map (clamp Config.transitMin Config.transitMax)).getD s.transitLimit
  let g := (grace.map (clamp Config.graceMin Config.graceMax)).getD s.vacateGrace
  ({ s with transitLimit := t, vacateGrace := g }, okWith (.values [some t, some g]))

/-- R20: a FREE stall goes OUT_OF_SERVICE. -/
def ownSetOutOfService (l : Lot) (n : Nat) (s : State) : State × Answer :=
  let st := s.stallAt l n
  if st.state = .free then (s.setStall l n { st with state := .outOfService }, okWith .none)
  else (s, refuse .badState)

/-- R20: an OUT_OF_SERVICE stall goes FREE. -/
def ownClearOutOfService (l : Lot) (n : Nat) (s : State) : State × Answer :=
  let st := s.stallAt l n
  if st.state = .outOfService then (s.setStall l n { st with state := .free }, okWith .none)
  else (s, refuse .badState)

/-! ## Sensor reports -/

/-- R10, by the state of the stall. -/
def sensorPresentStall (st : StallRec) : StallRec :=
  match st.state with
  | .free => { st with state := .arrived }
  | .arrived => st
  | .occupied => st
  | .vacated => { st with state := .occupied, grace := none }
  | .outOfService => st

/-- R10. -/
def ownSensorPresent (l : Lot) (n : Nat) (s : State) : State × Answer :=
  (s.setStall l n (sensorPresentStall (s.stallAt l n)), okWith .none)

/-- R11, by the state of the stall, with the vacate grace in force. -/
def sensorGoneStall (grace : Nat) (st : StallRec) : StallRec :=
  match st.state with
  | .free => st
  | .arrived => { st with state := .free }
  | .occupied => { st with state := .vacated, grace := some grace }
  | .vacated => st
  | .outOfService => st

/-- R11. -/
def ownSensorGone (l : Lot) (n : Nat) (s : State) : State × Answer :=
  (s.setStall l n (sensorGoneStall s.vacateGrace (s.stallAt l n)), okWith .none)

/-! ## Check-in -/

/-- R12: a refused check-in writes its display code to the keying stall and nothing else. -/
def refuseAtPost (l : Lot) (n : Nat) (st : Status) (code : Nat) (s : State) : State × Answer :=
  (showDisplay l n code s, refuse st)

/-- R12: display 10, welcome. -/
def welcomeCode : Nat := 10

/-- R13, R14, R15: a check-in taken on an unbound stall. A pass PARKED elsewhere loses its old stall; a
pass of another lot is transferred; then stall and pass are bound. -/
def checkIn (l : Lot) (n tag : Nat) (p : PassRec) (s : State) : State :=
  let s1 :=
    match p.state, p.stall with
    | .parked, some old => unbindStall p.lot old s
    | .parked, none => s
    | .inLane, _ => s
    | .inTransit, _ => s
  let s2 := if p.lot = l then s1 else transferCounts p.lot l p.party s1
  bindStall l n tag { p with lot := l } s2

/-- R16: a check-in on a stall already bound to the tag confirms the binding. -/
def confirmStall (st : StallRec) : StallRec :=
  if st.state = .vacated then { st with state := .occupied, grace := none } else st

/-- R12: a tag keyed at a post, through the five tests in order. -/
def ownKeyTag (tag : Nat) (l : Lot) (n : Nat) (s : State) : State × Answer :=
  let st := s.stallAt l n
  if st.state = .outOfService then refuseAtPost l n .badState 20 s
  else if stallBound st ∧ st.tag ≠ some tag then refuseAtPost l n .stallTaken 21 s
  else
    match s.passAt tag with
    | none => refuseAtPost l n .noSuch 23 s
    | some p =>
      if p.state = .inLane then refuseAtPost l n .badState 20 s
      else if p.lot ≠ l ∧ transferAllowed s l p.party = false then
        refuseAtPost l n .wrongLot 22 s
      else if stallBound st then
        (showDisplay l n welcomeCode (s.setStall l n (confirmStall st)), okWith .none)
      else (showDisplay l n welcomeCode (checkIn l n tag p s), okWith .none)

/-! ## Timers -/

/-- R17, R18: the transit deadline of a pass expires when its count stands at zero. -/
def expireTransit (tag : Nat) (s : State) : State :=
  match s.passAt tag with
  | some p =>
    if p.transit = some 0 then
      raiseLot .transitOverdue p.lot (s.setPass tag { p with transit := none, overdue := true })
    else s
  | none => s

/-- R17, R19: the grace deadline of a stall expires when its count stands at zero: the stall loses its
binding and the pass its stall. -/
def expireGrace (l : Lot) (n : Nat) (s : State) : State :=
  let st := s.stallAt l n
  if st.state = .vacated ∧ st.grace = some 0 then
    let s1 := unbindStall l n s
    match st.tag with
    | some t =>
      match s1.passAt t with
      | some p => s1.setPass t (toTransit s.transitLimit p)
      | none => s1
    | none => s1
  else s

/-! ## Retirement and reads -/

/-- R23: the office retires a live pass and is answered with the tab written off. -/
def ownRetirePass (tag : Nat) (s : State) : State × Answer :=
  match s.passAt tag with
  | none => (s, refuse .noSuch)
  | some p => (retirePass tag p s, okWith (.values [some p.tab]))

/-- R26: every field of a live pass. -/
def ownReadPass (tag : Nat) (s : State) : State × Answer :=
  match s.passAt tag with
  | none => (s, refuse .noSuch)
  | some p => (s, okWith (.pass tag p))

/-- R26: a pass's state, lot, and its stall or entry lane. -/
def ownFindTag (tag : Nat) (s : State) : State × Answer :=
  match s.passAt tag with
  | none => (s, refuse .noSuch)
  | some p =>
    (s, okWith (.found p.state p.lot p.stall p.lane))

/-- R26: every field of a stall record. -/
def ownReadStall (l : Lot) (n : Nat) (s : State) : State × Answer :=
  (s, okWith (.stall l n (s.stallAt l n)))

/-- R26: counters and configuration of a lot record, and the untagged-exit counter. The answer carries the
whole record, its window too, which R7 names beside the configuration (log entry 38, DESIGN CHOICE). -/
def ownReadLot (l : Lot) (s : State) : State × Answer :=
  (s, okWith (.lot (s.lotAt l) s.untagged))

/-- Insert an order view by placement sequence. -/
def insertBySeq (x : Nat × OrderView) : List (Nat × OrderView) → List (Nat × OrderView)
  | [] => [x]
  | y :: rest => if x.1 < y.1 then x :: y :: rest else y :: insertBySeq x rest

/-- The view of an order. -/
def orderView (n : Nat) (o : OrderRec) : OrderView :=
  { number := n, state := o.state, level := o.level, total := o.total }

/-- R166: the orders of a tag in HELD, PLACED, IN_PREP or READY, in placement order; of two with one
placement sequence the lower order number stands first (log entry 40, DESIGN CHOICE). -/
def placedOrdersOf (s : State) (tag : Nat) : List OrderView :=
  ((s.orders.filter fun kv => decide (kv.2.tag = some tag) &&
      (decide (kv.2.state = .held) || decide (kv.2.state = .placed) ||
        decide (kv.2.state = .inPrep) || decide (kv.2.state = .ready))).foldl
    (fun acc kv => insertBySeq (kv.2.seq.getD 0, orderView kv.1 kv.2) acc) []).map fun x => x.2

/-- R166: an order as LOOKUP_STALL shows it, without its level. -/
def billView (v : OrderView) : BillView := { number := v.number, state := v.state, total := v.total }

/-- R26, R166: the bound tag, its tab and its open orders, or "no car". -/
def ownLookupStall (l : Lot) (n : Nat) (s : State) : State × Answer :=
  let st := s.stallAt l n
  let car :=
    if stallBound st then
      st.tag.bind fun t => (s.passAt t).map fun p => (t, p.tab, (placedOrdersOf s t).map billView)
    else none
  (s, okWith (.lookup car))

/-! ## The rows -/

/-- READ_PASS (R26). -/
def execReadPass (seq : Byte) (tag : Nat) (s : State) : Host.Outcome State Fault Refusal :=
  .next (officeStep seq (ownReadPass tag) s)
/-- FIND_TAG (R26). -/
def execFindTag (seq : Byte) (tag : Nat) (s : State) : Host.Outcome State Fault Refusal :=
  .next (officeStep seq (ownFindTag tag) s)
/-- READ_STALL (R26). -/
def execReadStall (seq : Byte) (lot n : Nat) (s : State) : Host.Outcome State Fault Refusal :=
  .next (officeStep seq (withStall lot n ownReadStall) s)
/-- READ_LOT (R26). -/
def execReadLot (seq : Byte) (lot : Nat) (s : State) : Host.Outcome State Fault Refusal :=
  .next (officeStep seq (withLot lot ownReadLot) s)
/-- RETIRE_PASS (R23). -/
def execRetirePass (seq : Byte) (tag : Nat) (s : State) : Host.Outcome State Fault Refusal :=
  .next (officeStep seq (ownRetirePass tag) s)
/-- SET_CAPACITY (R8). -/
def execSetCapacity (seq : Byte) (lot v : Nat) (s : State) : Host.Outcome State Fault Refusal :=
  .next (officeStep seq (withLot lot (ownSetCapacity v)) s)
/-- SET_HEAD_LIMIT (R8). -/
def execSetHeadLimit (seq : Byte) (lot v : Nat) (s : State) : Host.Outcome State Fault Refusal :=
  .next (officeStep seq (withLot lot (ownSetHeadLimit v)) s)
/-- SET_EXIT_POLICY (R9). -/
def execSetExitPolicy (seq : Byte) (lot code : Nat) (s : State) : Host.Outcome State Fault Refusal :=
  .next (officeStep seq (withLot lot (ownSetExitPolicy code)) s)
/-- SET_LOT_LEVELS (R9). -/
def execSetLotLevels (seq : Byte) (lot : Nat) (post hand rush : Option Nat) (s : State) :
    Host.Outcome State Fault Refusal :=
  .next (officeStep seq (withLot lot (ownSetLotLevels post hand rush)) s)
/-- SET_TIMERS (R17). -/
def execSetTimers (seq : Byte) (transit grace : Option Nat) (s : State) :
    Host.Outcome State Fault Refusal :=
  .next (officeStep seq (ownSetTimers transit grace) s)
/-- SET_OUT_OF_SERVICE (R20). -/
def execSetOutOfService (seq : Byte) (lot n : Nat) (s : State) : Host.Outcome State Fault Refusal :=
  .next (officeStep seq (withStall lot n ownSetOutOfService) s)
/-- CLEAR_OUT_OF_SERVICE (R20). -/
def execClearOutOfService (seq : Byte) (lot n : Nat) (s : State) :
    Host.Outcome State Fault Refusal :=
  .next (officeStep seq (withStall lot n ownClearOutOfService) s)
/-- SENSOR_PRESENT (R10). -/
def execSensorPresent (o : Origin) (lot n : Nat) (s : State) : Host.Outcome State Fault Refusal :=
  .next (postRequest o lot n ownSensorPresent s)
/-- SENSOR_GONE (R11). -/
def execSensorGone (o : Origin) (lot n : Nat) (s : State) : Host.Outcome State Fault Refusal :=
  .next (postRequest o lot n ownSensorGone s)
/-- KEY_TAG (R12 to R16). -/
def execKeyTag (o : Origin) (lot n tag : Nat) (s : State) : Host.Outcome State Fault Refusal :=
  .next (postRequest o lot n (ownKeyTag tag) s)
/-- LOOKUP_STALL (R26, R166). -/
def execLookupStall (o : Origin) (lot n : Nat) (s : State) : Host.Outcome State Fault Refusal :=
  .next (handheldRequest o (withStall lot n ownLookupStall) (fun _ => withStall lot n ownLookupStall) s)
/-- TRANSIT_EXPIRY (R18). -/
def execTransitExpiry (tag : Nat) (s : State) : Host.Outcome State Fault Refusal :=
  .next (expireTransit tag s)
/-- GRACE_EXPIRY (R19). -/
def execGraceExpiry (l : Lot) (n : Nat) (s : State) : Host.Outcome State Fault Refusal :=
  .next (expireGrace l n s)

end Sys2Proof.Machine
end

