-- ==== Sys2Proof/Machine/Kitchen.lean ====
section
/-! DEFINITION. The Kitchen Dispatcher's commands (R167 to R181). -/

namespace Sys2Proof.Machine

/-- R171: a line as TAKE shows it, without its captured price. -/
def takenLine (ln : OrderLine) : TakenLine := { item := ln.item, qty := ln.qty }

/-- R171: TAKE, through the four tests in order; the head of the queue goes on top of the stack. -/
def ownTake (k : Fin 4) (s : State) : State × Answer :=
  let c := s.stationAt k
  if Config.stackDepth ≤ c.stack.length then (s, refuse .stationFull)
  else
    match s.queue with
    | [] => (s, refuse .nothingEligible)
    | n :: rest =>
      match s.orderAt n with
      | none => (s, refuse .nothingEligible)
      | some o =>
        let level := o.level.getD 0
        if level ≤ stationFloor s c then (s, refuse .nothingEligible)
        else if level ≤ c.baseFloor then (s, refuse .nothingEligible)
        else
          let s1 := { s with queue := rest }.setOrder n
            { o with state := .inPrep, station := some (k.val + 1) }
          (relamp o.tag (s1.setStation k { c with stack := n :: c.stack }),
            okWith (.taken n o.level o.tag (stallOfOrder s o) (o.lines.map takenLine)))

/-- R173: the order is popped from the top of a station's stack and marked. -/
def markReady (k : Fin 4) (n : Nat) (o : OrderRec) (s : State) : State × Answer :=
  let c := s.stationAt k
  let s1 := s.setStation k { c with stack := c.stack.tail }
  if o.state = .unclaimed then
    (s1.setOrder n { o with station := none }, okWith (.readied n .unclaimed none none))
  else
    (relamp o.tag (s1.setOrder n { o with state := .ready, station := none }),
      okWith (.readied n .ready o.tag (stallOfOrder s o)))

/-- R173: READY acting for a station. -/
def readyAt (k : Fin 4) (n : Nat) (o : OrderRec) (s : State) : State × Answer :=
  if (s.stationAt k).stack.head? = some n then markReady k n o s else (s, refuse .notTop)

/-- R173: READY from a kitchen station unit. -/
def ownReadyStation (n : Nat) (k : Fin 4) (s : State) : State × Answer :=
  match s.orderAt n with
  | none => (s, refuse .noSuch)
  | some o => readyAt k n o s

/-- R173: READY from the office acts for the station of the order. -/
def ownReadyOffice (n : Nat) (s : State) : State × Answer :=
  match s.orderAt n with
  | none => (s, refuse .noSuch)
  | some o =>
    match o.station.bind station? with
    | none => (s, refuse .notTop)
    | some k => readyAt k n o s

/-- R174: REMAKE sends a READY order back at level 7 with a new placement sequence. -/
def ownRemake (n : Nat) (s : State) : State × Answer :=
  match s.orderAt n with
  | none => (s, refuse .noSuch)
  | some o =>
    if o.state ≠ .ready then (s, refuse .badState)
    else
      let s1 := (s.setOrder n { o with
        state := .placed, level := some 7, seq := some s.olp.placeSeq,
        lastRaise := some s.olp.clock }).setOlp
          { s.olp with placeSeq := stepSequence Config.maxPlacement s.olp.placeSeq }
      (relamp o.tag (enterQueue n s1), okWith .none)

/-- R177: the order with its new level, state and last-raise time. -/
def releveled (level clock : Nat) (o : OrderRec) : OrderRec :=
  { o with
    state := if level = 0 then .held else .placed
    level := some level
    lastRaise := some clock }

/-- R177, R181: an order with its number, state and level. -/
def levelView (n : Nat) (o : OrderRec) : LevelView := { number := n, state := o.state, level := o.level }

/-- R177: SET_LEVEL on a HELD or PLACED order. R177 gives no order of its refusals: the level is tested
first, then the order number, then the order's state (log entry 37, DESIGN CHOICE). A HELD order set to 0
does not move in the held list. -/
def ownSetLevel (n level : Nat) (s : State) : State × Answer :=
  if 7 < level then (s, refuse .outOfRange)
  else
    match s.orderAt n with
    | none => (s, refuse .noSuch)
    | some o =>
      if o.state = .held ∨ o.state = .placed then
        let o' := releveled level s.olp.clock o
        let s1 := (leaveQueue n s).setOrder n o'
        let s2 :=
          if level ≠ 0 then enterQueue n (leaveHeld n s1)
          else if o.state = .held then s1
          else enterHeld n (leaveHeld n s1)
        (relamp o.tag s2, okWith (.leveled (levelView n o')))
      else (s, refuse .badState)

/-- R179: one order taken off a stack. -/
def requeueOrder (s : State) (n : Nat) : State :=
  match s.orderAt n with
  | none => s
  | some o =>
    if o.state = .inPrep then
      relamp o.tag (enterQueue n (s.setOrder n { o with state := .placed, station := none }))
    else s.setOrder n { o with station := none }

/-- The orders of a list in a given state. -/
def ordersIn (s : State) (st : OrderState) (ns : List Nat) : List Nat :=
  ns.filter fun n => decide ((s.orderAt n).map (fun o => o.state) = some st)

/-- R179: Requeue Station empties the stack from top to bottom. -/
def ownRequeueStation (k : Fin 4) (s : State) : State × Answer :=
  let c := s.stationAt k
  (c.stack.foldl requeueOrder (s.setStation k { c with stack := [] }),
    okWith (.requeued (ordersIn s .inPrep c.stack) (ordersIn s .unclaimed c.stack)))

/-- R170: clamp and store a base floor. -/
def ownSetBaseFloor (level : Nat) (k : Fin 4) (s : State) : State × Answer :=
  let v := clamp 0 Config.maxBaseFloor level
  (s.setStation k { s.stationAt k with baseFloor := v }, okWith (.values [some v]))

/-- R175: clamp and store the aging period; the running count keeps its value. -/
def ownSetAgingPeriod (seconds : Nat) (s : State) : State × Answer :=
  let v := clamp Config.agingMin Config.agingMax seconds
  ({ s with agingPeriod := v }, okWith (.values [some v]))

/-- R176: the age of an order, the site clock less its last-raise time modulo 86,400. -/
def ageOf (clock lastRaise : Nat) : Nat := (clock + Config.dayLength - lastRaise) % Config.dayLength

/-- R176: an order of the queue that this expiry raises. -/
def raisedBy (clock period : Nat) (o : OrderRec) : Bool :=
  let level := o.level.getD 0
  decide (1 ≤ level) && decide (level ≤ 5) && decide (period ≤ ageOf clock (o.lastRaise.getD 0))

/-- R176: the order raised one level at this clock. -/
def raiseOrder (clock : Nat) (o : OrderRec) : OrderRec :=
  { o with level := o.level.map fun v => v + 1, lastRaise := some clock }

/-- R175, R176: the aging timer expires: the queue is aged and the timer set again to the period in
force. -/
def ageQueue (s : State) : State :=
  let orders := Table.mapV (fun n o =>
    if s.queue.contains n && raisedBy s.olp.clock s.agingPeriod o then raiseOrder s.olp.clock o
    else o) s.orders
  { s with
    orders := orders
    queue := s.queue.foldl (fun q n => insertBy (queueBefore orders) n q) []
    agingCount := s.agingPeriod }

/-- R175: the aging timer expires when its count stands at zero. -/
def expireAging (s : State) : State := if s.agingCount = 0 then ageQueue s else s

/-- The view of a queued or held order (R181). -/
def queueView (s : State) (n : Nat) : QueueView :=
  match s.orderAt n with
  | some o =>
    { number := n, level := o.level, seq := o.seq, tag := o.tag, placedTime := o.placedTime,
      lastRaise := o.lastRaise }
  | none =>
    { number := n, level := none, seq := none, tag := none, placedTime := none, lastRaise := none }

/-- R181: the queue, the held list and the aging timer. -/
def ownReadQueue (s : State) : State × Answer :=
  (s, okWith (.queue (s.queue.map (queueView s)) (s.held.map (queueView s)) s.agingPeriod s.agingCount))

/-- The view of a stacked order (R181). -/
def stackView (s : State) (n : Nat) : LevelView :=
  match s.orderAt n with
  | some o => levelView n o
  | none => { number := n, state := .inPrep, level := none }

/-- R181: online flag, base floor, floor, and the stack from bottom to top. -/
def ownReadStation (k : Fin 4) (s : State) : State × Answer :=
  let c := s.stationAt k
  (s, okWith (.station c.online c.baseFloor (stationFloor s c) (c.stack.reverse.map (stackView s))))

/-! ## The rows -/

/-- TAKE (R171): the station named by the office, or the unit's own. -/
def execTake (o : Origin) (station : Nat) (s : State) : Host.Outcome State Fault Refusal :=
  .next (kitchenRequest o (withStation station ownTake) ownTake s)
/-- READY (R173). -/
def execReady (o : Origin) (order : Nat) (s : State) : Host.Outcome State Fault Refusal :=
  .next (kitchenRequest o (ownReadyOffice order) (ownReadyStation order) s)
/-- REMAKE (R174). -/
def execRemake (o : Origin) (order : Nat) (s : State) : Host.Outcome State Fault Refusal :=
  .next (kitchenRequest o (ownRemake order) (fun _ => ownRemake order) s)
/-- SET_LEVEL (R177). -/
def execSetLevel (seq : Byte) (order level : Nat) (s : State) : Host.Outcome State Fault Refusal :=
  .next (officeStep seq (ownSetLevel order level) s)
/-- REQUEUE_STATION (R179). -/
def execRequeueStation (seq : Byte) (station : Nat) (s : State) : Host.Outcome State Fault Refusal :=
  .next (officeStep seq (withStation station ownRequeueStation) s)
/-- SET_BASE_FLOOR (R170). -/
def execSetBaseFloor (seq : Byte) (station level : Nat) (s : State) :
    Host.Outcome State Fault Refusal :=
  .next (officeStep seq (withStation station (ownSetBaseFloor level)) s)
/-- SET_AGING_PERIOD (R175). -/
def execSetAgingPeriod (seq : Byte) (seconds : Nat) (s : State) : Host.Outcome State Fault Refusal :=
  .next (officeStep seq (ownSetAgingPeriod seconds) s)
/-- AGING_EXPIRY (R176). -/
def execAgingExpiry (s : State) : Host.Outcome State Fault Refusal := .next (expireAging s)
/-- READ_QUEUE (R181). -/
def execReadQueue (seq : Byte) (s : State) : Host.Outcome State Fault Refusal :=
  .next (officeStep seq ownReadQueue s)
/-- READ_STATION (R181). -/
def execReadStation (seq : Byte) (station : Nat) (s : State) : Host.Outcome State Fault Refusal :=
  .next (officeStep seq (withStation station ownReadStation) s)

end Sys2Proof.Machine
end

