-- ==== Sys2Proof/Machine/Lanes.lean ====
section
/-! DEFINITION. The Lane Sequencer's commands (R27 to R42). -/

namespace Sys2Proof.Machine

/-- Every lane (ARRIVE and LEFT are taken on lanes of both kinds, R41). -/
def anyLane (_ : Lot) : Bool := true

/-- Exit lanes 5 and 6. -/
def isExitLane (i : Lot) : Bool := !isEntryLane i

/-- R27: a request refused at the lane writes its code to the last refusal. -/
def laneRefuse (i : Lot) (st : Status) (d : Data) (s : State) : State × Answer :=
  (s.setLane i { s.laneAt i with lastRefusal := some st }, { status := st, data := d })

/-- R27: the lane returns to IDLE: tag, untagged release and last refusal are removed. -/
def idleLane (c : LaneCtx) : LaneCtx :=
  { c with state := .idle, tag := none, untagged := false, lastRefusal := none }

/-- R28, R32, R33, R35, R39: BARRIER_DOWN is sent and the lane returns to IDLE. -/
def lowerAndIdle (i : Lot) (s : State) : State :=
  s.setLane i { idleLane (s.laneAt i) with order := .down }

/-- R29, R35: ARRIVE. -/
def ownArrive (i : Lot) (s : State) : State × Answer :=
  let c := s.laneAt i
  if c.state = .idle then (s.setLane i { c with state := .occupied }, okWith .none)
  else (s, okWith .none)

/-- R30, R31: ADMIT on an entry lane, through the lane checks and then the lot checks. -/
def ownAdmit (lot fee party : Nat) (i : Lot) (s : State) : State × Answer :=
  let c := s.laneAt i
  if c.state = .idle then laneRefuse i .noVehicle .none s
  else if c.state = .admitted then laneRefuse i .badState .none s
  else if s.olp.session ≠ .open then laneRefuse i .notOpen .none s
  else
    match lot? lot, feeClass? fee with
    | some l, some f =>
      let n := clamp 1 8 party
      let r := s.lotAt l
      if r.capacity ≤ r.inside then laneRefuse i .lotFull .none s
      else if r.headLimit < r.heads + n then laneRefuse i .headLimit .none s
      else
        let t := nextTag s
        let s1 := createPass l f n (lotNumber i) s
        (s1.setLane i { s1.laneAt i with state := .admitted, tag := some t, order := .up },
          okWith (.admitted t l f n s.olp.clock))
    | none, _ => laneRefuse i .outOfRange .none s
    | some _, none => laneRefuse i .outOfRange .none s

/-- R32, R33: the lane tag and the mark, 1 when the pass was found and 0 for "no pass". -/
def laneMark (tag : Nat) (found : Bool) : Data := .values [some tag, some (if found then 1 else 0)]

/-- R32: the pass goes IN_TRANSIT and its fee class is counted in its lot. -/
def movePassOut (tag : Nat) (p : PassRec) (s : State) : State :=
  (s.setPass tag (toTransit s.transitLimit p)).setLot p.lot (countAdmitted p.fee (s.lotAt p.lot))

/-- R32: PASSED at an entry lane. -/
def ownPassed (i : Lot) (s : State) : State × Answer :=
  let c := s.laneAt i
  match c.state, c.tag with
  | .admitted, some t =>
    match passInLane s t (lotNumber i) with
    | some p => (lowerAndIdle i (movePassOut t p s), okWith (laneMark t true))
    | none => (lowerAndIdle i s, okWith (laneMark t false))
  | .admitted, none => (lowerAndIdle i s, okWith (laneMark 0 false))
  | .idle, _ => laneRefuse i .badState .none s
  | .occupied, _ => laneRefuse i .badState .none s
  | .released, _ => laneRefuse i .badState .none s

/-- R33, R35: LEFT, a backout at an entry lane or a car leaving an exit lane. -/
def ownLeft (i : Lot) (s : State) : State × Answer :=
  let c := s.laneAt i
  match c.state, c.tag with
  | .idle, _ => (s, okWith .none)
  | .occupied, _ => (s.setLane i (idleLane c), okWith .none)
  | .admitted, some t =>
    match passInLane s t (lotNumber i) with
    | some p => (lowerAndIdle i (retirePass t p s), okWith (laneMark t true))
    | none => (lowerAndIdle i s, okWith (laneMark t false))
  | .admitted, none => (lowerAndIdle i s, okWith (laneMark 0 false))
  | .released, _ => (lowerAndIdle i s, okWith .none)

/-- R37: the exits counter of the pass's lot rises by one, stopping at 65,535. -/
def countExit (l : Lot) (s : State) : State :=
  let r := s.lotAt l
  s.setLot l { r with exits := min (r.exits + 1) Config.maxCount16 }

/-- R36, R37: EXIT at an exit lane. -/
def ownExit (tag : Nat) (i : Lot) (s : State) : State × Answer :=
  let c := s.laneAt i
  if c.state = .idle then laneRefuse i .noVehicle .none s
  else if c.state = .released then laneRefuse i .badState .none s
  else
    match s.passAt tag with
    | none => laneRefuse i .noSuch .none s
    | some p =>
      if p.state = .inLane then laneRefuse i .badState .none s
      else if p.tab ≠ 0 ∧ (s.lotAt p.lot).policy = .hold then
        laneRefuse i .tabDue (.values [some p.tab]) s
      else
        let s1 := retirePass tag p (countExit p.lot s)
        (s1.setLane i { s1.laneAt i with state := .released, tag := some tag, order := .up },
          okWith (.values [some tag, some (lotNumber p.lot), some p.tab]))

/-- R39: EXIT_PASSED at an exit lane. -/
def ownExitPassed (i : Lot) (s : State) : State × Answer :=
  if (s.laneAt i).state = .released then (lowerAndIdle i s, okWith .none)
  else laneRefuse i .badState .none s

/-- R40: Exit Untagged. -/
def ownExitUntagged (i : Lot) (s : State) : State × Answer :=
  let c := s.laneAt i
  if c.state = .released then laneRefuse i .badState .none s
  else
    ({ s with untagged := min (s.untagged + 1) Config.maxCount16 }.setLane i
      { c with state := .released, untagged := true, tag := none, order := .up }, okWith .none)

/-- R42: every field of a lane context. -/
def ownReadLane (i : Lot) (s : State) : State × Answer := (s, okWith (.lane i (s.laneAt i)))

/-! ## The rows -/

/-- ARRIVE (R29, R35). -/
def execArrive (o : Origin) (lane : Nat) (s : State) : Host.Outcome State Fault Refusal :=
  .next (laneRequest o anyLane lane ownArrive s)
/-- ADMIT (R30, R31). -/
def execAdmit (o : Origin) (lane lot fee party : Nat) (s : State) :
    Host.Outcome State Fault Refusal :=
  .next (laneRequest o isEntryLane lane (ownAdmit lot fee party) s)
/-- PASSED (R32). -/
def execPassed (o : Origin) (lane : Nat) (s : State) : Host.Outcome State Fault Refusal :=
  .next (laneRequest o isEntryLane lane ownPassed s)
/-- LEFT (R33, R35). -/
def execLeft (o : Origin) (lane : Nat) (s : State) : Host.Outcome State Fault Refusal :=
  .next (laneRequest o anyLane lane ownLeft s)
/-- EXIT (R36, R37). -/
def execExit (o : Origin) (lane tag : Nat) (s : State) : Host.Outcome State Fault Refusal :=
  .next (laneRequest o isExitLane lane (ownExit tag) s)
/-- EXIT_PASSED (R39). -/
def execExitPassed (o : Origin) (lane : Nat) (s : State) : Host.Outcome State Fault Refusal :=
  .next (laneRequest o isExitLane lane ownExitPassed s)
/-- EXIT_UNTAGGED (R40). -/
def execExitUntagged (seq : Byte) (lane : Nat) (s : State) : Host.Outcome State Fault Refusal :=
  .next (officeStep seq (withLane isExitLane lane ownExitUntagged) s)
/-- READ_LANE (R42). -/
def execReadLane (seq : Byte) (lane : Nat) (s : State) : Host.Outcome State Fault Refusal :=
  .next (officeStep seq (withLane anyLane lane ownReadLane) s)

end Sys2Proof.Machine
end

