-- ==== Sys2Proof/Machine/Orders.lean ====
section
/-! DEFINITION. The Order Table's commands (R145 to R166). -/

namespace Sys2Proof.Machine

/-! ## The price table -/

/-- An item number is one of the price table, 1 to 127 (R148). -/
def itemInRange (item : Nat) : Bool := decide (1 ≤ item) && decide (item ≤ Config.maxItem)

/-- R148: the item is listed; an unlisted item or a number outside 1 to 127 is unknown. -/
def itemKnown (s : State) (item : Nat) : Bool := itemInRange item && (s.priceAt item).listed

/-- R148: set or clear the available flag of a known item. -/
def setAvailable (item : Nat) (v : Bool) (s : State) : State × Answer :=
  if itemKnown s item then
    (s.setPriceRec item { s.priceAt item with available := v }, okWith .none)
  else (s, refuse .noSuch)

/-- R148: SOLD_OUT. -/
def ownSoldOut (item : Nat) (s : State) : State × Answer := setAvailable item false s

/-- R148: BACK_IN. -/
def ownBackIn (item : Nat) (s : State) : State × Answer := setAvailable item true s

/-- R148: clamp and store a price, listing the item if it was unlisted. -/
def ownSetPrice (item price : Nat) (s : State) : State × Answer :=
  if itemInRange item then
    let p := s.priceAt item
    let v := clamp 0 Config.maxPrice price
    (s.setPriceRec item
      { listed := true, price := v, available := if p.listed then p.available else true },
      okWith (.values [some v]))
  else (s, refuse .outOfRange)

/-! ## Drafts at the post -/

/-- The draft a stall's draft order field holds. -/
def draftOf (s : State) (st : StallRec) : Option (Nat × OrderRec) :=
  st.draft.bind fun n => (s.orderAt n).map fun o => (n, o)

/-- The new draft of R151. -/
def newDraft (tag : Option Nat) (ln : OrderLine) : OrderRec :=
  { state := .draft, tag := tag, source := .post, level := none, seq := none, lines := [ln],
    total := linesTotal [ln], placedTime := none, lastRaise := none, station := none,
    draftDeadline := some Config.draftLimit }

/-- R151: the line is appended to the stall's draft, or starts a new one. -/
def takeLine (l : Lot) (n : Nat) (ln : OrderLine) (s : State) : State :=
  let st := s.stallAt l n
  match draftOf s st with
  | some (d, o) =>
    let lines := o.lines ++ [ln]
    s.setOrder d { o with lines := lines, total := linesTotal lines }
  | none => setDraft l n (some (nextOrderNumber s)) (createOrder (newDraft st.tag ln) s)

/-- The lines and the total of a stall's draft, empty where there is none. -/
def draftLines (s : State) (st : StallRec) : List OrderLine :=
  match draftOf s st with
  | some (_, o) => o.lines
  | none => []

/-- R151: KEY_LINE, through the eight tests in order. -/
def ownKeyLine (item qty : Nat) (l : Lot) (n : Nat) (s : State) : State × Answer :=
  let st := s.stallAt l n
  let ln : OrderLine := { item := item, qty := qty, price := (s.priceAt item).price }
  let held := draftLines s st
  if st.state ≠ .occupied then refuseAtPost l n .badState 20 s
  else if (s.lotAt l).window = .closed then refuseAtPost l n .windowClosed 39 s
  else if itemKnown s item = false then refuseAtPost l n .noSuch 45 s
  else if qty < 1 ∨ 9 < qty then refuseAtPost l n .outOfRange 45 s
  else if (s.priceAt item).available = false then refuseAtPost l n .soldOut 46 s
  else if Config.maxLines ≤ held.length then refuseAtPost l n .lineLimit 47 s
  else if Config.maxTotal < linesTotal (held ++ [ln]) then refuseAtPost l n .totalLimit 47 s
  else if (draftOf s st).isNone ∧ orderSlotFree s = false then refuseAtPost l n .tableFull 47 s
  else (showDisplay l n 41 (takeLine l n ln s), okWith .none)

/-- R152: KEY_SUBMIT places the stall's draft. -/
def ownKeySubmit (intermission : Bool) (l : Lot) (n : Nat) (s : State) : State × Answer :=
  let st := s.stallAt l n
  let r := s.lotAt l
  if st.state ≠ .occupied then refuseAtPost l n .badState 20 s
  else
    match draftOf s st with
    | none => refuseAtPost l n .badState 20 s
    | some (d, _) =>
      let s1 := setDraft l n none s
      match r.window with
      | .closed => refuseAtPost l n .windowClosed 39 s
      | .open =>
        if intermission then (showDisplay l n 43 (placeOrder d true 0 s1), okWith .none)
        else (showDisplay l n 42 (placeOrder d false r.postLevel s1), okWith .none)
      | .rush => (showDisplay l n 42 (placeOrder d false r.rushLevel s1), okWith .none)

/-- R152: KEY_CANCEL frees the stall's draft. -/
def ownKeyCancel (l : Lot) (n : Nat) (s : State) : State × Answer :=
  match draftOf s (s.stallAt l n) with
  | none => refuseAtPost l n .badState 20 s
  | some (d, _) =>
    (closeIfEmpty (showDisplay l n 44 (setDraft l n none (s.dropOrder d))), okWith .none)

/-- R153, R161: a draft is freed and its stall, the stall of its pass, is emptied of it and shows a
code (log entry 17). -/
def freeDraft (d : Nat) (o : OrderRec) (code : Nat) (s : State) : State :=
  let s1 := s.dropOrder d
  match stallOfOrder s o with
  | some (l, n) => showDisplay l n code (setDraft l n none s1)
  | none => s1

/-- R151, R153: the draft deadline of an order expires when its count stands at zero. -/
def expireDraft (d : Nat) (s : State) : State :=
  match s.orderAt d with
  | some o =>
    if o.state = .draft ∧ o.draftDeadline = some 0 then closeIfEmpty (freeDraft d o 24 s) else s
  | none => s

/-! ## PLACE -/

/-- R155: the line tests of one line in order, with the running total before it. -/
def lineTest (s : State) (ln : LineParam) (total : Nat) : Status :=
  if itemKnown s ln.item = false then .noSuch
  else if ln.qty < 1 ∨ 9 < ln.qty then .outOfRange
  else if (s.priceAt ln.item).available = false then .soldOut
  else if Config.maxTotal < total + ln.qty * (s.priceAt ln.item).price then .totalLimit
  else .ok

/-- R155: the first line that fails its tests: its position and its reason. R155 does not say where the
positions begin: `placeLines` counts them from 1 (log entry 35, DESIGN CHOICE). -/
def firstBadLine (s : State) : Nat → Nat → List LineParam → Option (Nat × Status)
  | _, _, [] => none
  | pos, total, ln :: rest =>
    if lineTest s ln total = .ok then
      firstBadLine s (pos + 1) (total + ln.qty * (s.priceAt ln.item).price) rest
    else some (pos, lineTest s ln total)

/-- R155: the lines with their captured prices. -/
def captureLines (s : State) (lines : List LineParam) : List OrderLine :=
  lines.map fun ln => { item := ln.item, qty := ln.qty, price := (s.priceAt ln.item).price }

/-- R155, R156: the list, line and slot tests, and then the creation and placement of the order. The
position of a failing line counts from 1 (log entry 35, DESIGN CHOICE). -/
def placeLines (src : OrderSource) (tag : Option Nat) (level : Nat) (handheld : Option Nat)
    (lines : List LineParam) (s : State) : State × Answer :=
  if lines = [] then (s, refuse .outOfRange)
  else if Config.maxLines < lines.length then (s, refuse .lineLimit)
  else
    match firstBadLine s 1 0 lines with
    | some (pos, why) => (s, { status := why, data := .values [some pos] })
    | none =>
      if orderSlotFree s then
        let d := nextOrderNumber s
        let held := decide (level = 0)
        let taken := captureLines s lines
        let o : OrderRec :=
          { state := .placed, tag := tag, source := src, level := none, seq := none,
            lines := taken, total := linesTotal taken, placedTime := none, lastRaise := none,
            station := none, draftDeadline := none }
        (placeOrder d held level (createOrder o s),
          okWith (.placed handheld d level (linesTotal taken) (if held then .held else .placed)))
      else (s, refuse .tableFull)

/-- R155: a handheld's PLACE. -/
def ownPlaceHandheld (tag : Option Nat) (lines : List LineParam) (h : Nat) (s : State) :
    State × Answer :=
  match tag.bind s.passAt with
  | none => (s, refuse .noSuch)
  | some p =>
    let r := s.lotAt p.lot
    if p.state ≠ .parked then (s, refuse .badState)
    else
      match r.window with
      | .closed => (s, refuse .windowClosed)
      | .open => placeLines .handheld tag r.handLevel (some h) lines s
      | .rush => placeLines .handheld tag r.rushLevel (some h) lines s

/-- R156: the office's PLACE: a tag given must be live, and the level is 0 to 7. -/
def ownPlaceOffice (tag : Option Nat) (level : Nat) (lines : List LineParam) (s : State) :
    State × Answer :=
  if tag.isSome ∧ (tag.bind s.passAt).isNone then (s, refuse .noSuch)
  else if 7 < level then (s, refuse .outOfRange)
  else placeLines .office tag level none lines s

/-! ## Delivery, payment, cancellation, discard -/

/-- R185: the stall that a DELIVER names has its lot or its stall number outside its range. -/
def namesNoStall (stall : Option (Nat × Nat)) : Bool :=
  match stall with
  | some x => (stall? x.1 x.2).isNone
  | none => false

/-- R159, R185: DELIVER. `fromOffice` tells who asks; the stall of an untagged order is not read, and that
of a tagged one is read at the third test (log entry 21). -/
def ownDeliver (fromOffice : Bool) (order : Nat) (stall : Option (Nat × Nat)) (s : State) :
    State × Answer :=
  match s.orderAt order with
  | none => (s, refuse .noSuch)
  | some o =>
    if o.state ≠ .ready then (s, refuse .badState)
    else
      match o.tag with
      | none =>
        if fromOffice then
          (closeIfEmpty (s.dropOrder order), okWith (.values [some order, some o.total, none]))
        else (s, refuse .wrongStall)
      | some t =>
        let named := stall.bind fun x => stall? x.1 x.2
        if namesNoStall stall then (s, refuse .outOfRange)
        else if named.isSome ∧ named = stallOfTag s t then
          let s1 := relamp (some t) ((chargeTab t o.total s).dropOrder order)
          (closeIfEmpty s1,
            okWith (.values [some order, some o.total, (s1.passAt t).map fun p => p.tab]))
        else (s, refuse .wrongStall)

/-- R21, R160: PAY. -/
def ownPay (tag amount : Nat) (s : State) : State × Answer :=
  if Config.maxTab < amount then (s, refuse .outOfRange)
  else
    match s.passAt tag with
    | none => (s, refuse .noSuch)
    | some p =>
      (s.setPass tag { p with tab := p.tab - amount },
        okWith (.values [some (p.tab - amount), some (amount - p.tab)]))

/-- R161: Cancel Order. -/
def ownCancelOrder (order : Nat) (s : State) : State × Answer :=
  match s.orderAt order with
  | none => (s, refuse .noSuch)
  | some o =>
    match o.state with
    | .inPrep => (s, refuse .badState)
    | .draft => (closeIfEmpty (relamp o.tag (freeDraft order o 44 s)), okWith .none)
    | .held => (closeIfEmpty (relamp o.tag (leaveHeld order (s.dropOrder order))), okWith .none)
    | .placed => (closeIfEmpty (relamp o.tag (leaveQueue order (s.dropOrder order))), okWith .none)
    | .ready => (closeIfEmpty (relamp o.tag (s.dropOrder order)), okWith .none)
    | .unclaimed =>
      if o.station.isSome then (s, refuse .badState)
      else (closeIfEmpty (s.dropOrder order), okWith .none)

/-- R162: DISCARD frees an UNCLAIMED order on no stack. -/
def ownDiscard (order : Nat) (s : State) : State × Answer :=
  match s.orderAt order with
  | none => (s, refuse .noSuch)
  | some o =>
    if o.state = .unclaimed ∧ o.station.isNone then
      (closeIfEmpty (s.dropOrder order), okWith .none)
    else (s, refuse .badState)

/-! ## Reads -/

/-- R166: every field and line of an order. -/
def ownReadOrder (order : Nat) (s : State) : State × Answer :=
  match s.orderAt order with
  | none => (s, refuse .noSuch)
  | some o => (s, okWith (.order order o))

/-- R166: the draft of a tag, if any. -/
def draftsOf (s : State) (tag : Nat) : List OrderView :=
  (s.orders.filter fun kv => decide (kv.2.tag = some tag) && decide (kv.2.state = .draft)).map
    fun kv => orderView kv.1 kv.2

/-- R166: the open orders of a live pass, placed orders in placement order, then the draft. -/
def ownOrdersOfTag (tag : Nat) (s : State) : State × Answer :=
  match s.passAt tag with
  | none => (s, refuse .noSuch)
  | some _ => (s, okWith (.orders (placedOrdersOf s tag ++ draftsOf s tag)))

/-- R166: the entries of a range of items within 1 to 127. -/
def ownReadPrices (first last : Nat) (s : State) : State × Answer :=
  if 1 ≤ first ∧ first ≤ last ∧ last ≤ Config.maxItem then
    (s, okWith (.prices ((List.range (last + 1 - first)).map fun i => s.priceAt (first + i))))
  else (s, refuse .outOfRange)

/-- R166: a lot's window and its three levels. -/
def ownReadLotWindow (l : Lot) (s : State) : State × Answer :=
  let r := s.lotAt l
  (s, okWith (.window r.window r.postLevel r.handLevel r.rushLevel))

/-! ## The rows -/

/-- PLACE (R155, R156). -/
def execPlace (o : Origin) (tag : Option Nat) (level : Nat) (lines : List LineParam) (s : State) :
    Host.Outcome State Fault Refusal :=
  .next (handheldRequest o (ownPlaceOffice tag level lines) (ownPlaceHandheld tag lines) s)
/-- DELIVER (R159). -/
def execDeliver (o : Origin) (order : Nat) (stall : Option (Nat × Nat)) (s : State) :
    Host.Outcome State Fault Refusal :=
  .next (handheldRequest o (ownDeliver true order stall) (fun _ => ownDeliver false order stall) s)
/-- PAY (R160). -/
def execPay (o : Origin) (tag amount : Nat) (s : State) : Host.Outcome State Fault Refusal :=
  .next (handheldRequest o (ownPay tag amount) (fun _ => ownPay tag amount) s)
/-- CANCEL_ORDER (R161). -/
def execCancelOrder (seq : Byte) (order : Nat) (s : State) : Host.Outcome State Fault Refusal :=
  .next (officeStep seq (ownCancelOrder order) s)
/-- DISCARD (R162, R180). -/
def execDiscard (o : Origin) (order : Nat) (s : State) : Host.Outcome State Fault Refusal :=
  .next (kitchenRequest o (ownDiscard order) (fun _ => ownDiscard order) s)
/-- SOLD_OUT (R148, R180). -/
def execSoldOut (o : Origin) (item : Nat) (s : State) : Host.Outcome State Fault Refusal :=
  .next (kitchenRequest o (ownSoldOut item) (fun _ => ownSoldOut item) s)
/-- BACK_IN (R148, R180). -/
def execBackIn (o : Origin) (item : Nat) (s : State) : Host.Outcome State Fault Refusal :=
  .next (kitchenRequest o (ownBackIn item) (fun _ => ownBackIn item) s)
/-- SET_PRICE (R148). -/
def execSetPrice (seq : Byte) (item price : Nat) (s : State) : Host.Outcome State Fault Refusal :=
  .next (officeStep seq (ownSetPrice item price) s)
/-- READ_ORDER (R166). -/
def execReadOrder (seq : Byte) (order : Nat) (s : State) : Host.Outcome State Fault Refusal :=
  .next (officeStep seq (ownReadOrder order) s)
/-- ORDERS_OF_TAG (R166). -/
def execOrdersOfTag (seq : Byte) (tag : Nat) (s : State) : Host.Outcome State Fault Refusal :=
  .next (officeStep seq (ownOrdersOfTag tag) s)
/-- READ_PRICES (R166). -/
def execReadPrices (seq : Byte) (first last : Nat) (s : State) :
    Host.Outcome State Fault Refusal :=
  .next (officeStep seq (ownReadPrices first last) s)
/-- READ_LOT_WINDOW (R166). -/
def execReadLotWindow (seq : Byte) (lot : Nat) (s : State) : Host.Outcome State Fault Refusal :=
  .next (officeStep seq (withLot lot ownReadLotWindow) s)
/-- KEY_LINE (R151). -/
def execKeyLine (o : Origin) (lot n item qty : Nat) (s : State) : Host.Outcome State Fault Refusal :=
  .next (postRequest o lot n (ownKeyLine item qty) s)
/-- KEY_SUBMIT (R152). -/
def execKeySubmit (o : Origin) (lot n : Nat) (intermission : Bool) (s : State) :
    Host.Outcome State Fault Refusal :=
  .next (postRequest o lot n (ownKeySubmit intermission) s)
/-- KEY_CANCEL (R152). -/
def execKeyCancel (o : Origin) (lot n : Nat) (s : State) : Host.Outcome State Fault Refusal :=
  .next (postRequest o lot n ownKeyCancel s)
/-- DRAFT_EXPIRY (R153). -/
def execDraftExpiry (order : Nat) (s : State) : Host.Outcome State Fault Refusal :=
  .next (expireDraft order s)

end Sys2Proof.Machine
end

