-- ==== Sys2Proof/Machine/Loops.lean ====
section
/-! DEFINITION. The Loop Master's commands (R44 to R64). -/

namespace Sys2Proof.Machine

/-! ## Units -/

/-- Rewrite a unit record. -/
def modUnit (n : LoopId) (a : Nat) (f : UnitRec → UnitRec) (s : State) : State :=
  s.setUnit n a (f (s.unitAt n a))

/-- The kitchen station of a service-loop address, 7 to 10. -/
def stationUnit? (a : Nat) : Option (Fin 4) := if 7 ≤ a then station? (a - 6) else none

/-- The lane of a lane terminal's address, 1 to 6 on the service loop. -/
def laneUnit? (n : LoopId) (a : Nat) : Option Lot := if n = serviceLoop then lane? a else none

/-- R44: the mirror of a unit's online flag, in the stall record of a post or the context of a kitchen
station. -/
def mirrorOnline (n : LoopId) (a : Nat) (v : Bool) (s : State) : State :=
  match stallBehind n a with
  | some (l, k) => s.setStall l k { s.stallAt l k with online := v }
  | none =>
    match stationUnit? a with
    | some k => s.setStation k { s.stationAt k with online := v }
    | none => s

/-- R44: write a unit's online flag with its mirror, and its miss count. -/
def setOnline (n : LoopId) (a : Nat) (v : Bool) (miss : Nat) (s : State) : State :=
  mirrorOnline n a v (modUnit n a (fun u => { u with online := v, miss := miss }) s)

/-- R53, R54: a notice with the bit of the post's lot, or another with the site bit for a service unit. -/
def raiseLink (n : LoopId) (a : Nat) (post service : NoticeKind) (s : State) : State :=
  match stallBehind n a with
  | some (l, _) => raiseLot post l s
  | none => raiseSite service s

/-! ## Set Fitted and Read Loop -/

/-- R45: the unit record of a unit left out of the sweep. -/
def unfitted : UnitRec := { UnitRec.fresh with fitted := false }

/-- R45: Set Fitted. -/
def ownSetFitted (loop a : Nat) (fitted : Bool) (s : State) : State × Answer :=
  match loop? loop with
  | none => (s, refuse .outOfRange)
  | some n =>
    if a < 1 ∨ maxAddress n < a then (s, refuse .outOfRange)
    else if (s.unitAt n a).fitted = fitted then (s, okWith .none)
    else if fitted then (s.setUnit n a UnitRec.fresh, okWith .none)
    else (mirrorOnline n a false (s.setUnit n a unfitted), okWith .none)

/-- R64: a unit as Read Loop shows it. -/
def unitView (n : LoopId) (s : State) (a : Nat) : UnitView :=
  let u := s.unitAt n a
  { address := a, fitted := u.fitted, online := u.online, miss := u.miss, pending := u.pending.isSome }

/-- R64: Read Loop. -/
def ownReadLoop (loop : Nat) (s : State) : State × Answer :=
  match loop? loop with
  | none => (s, refuse .outOfRange)
  | some n =>
    let c := s.loopAt n
    (s, okWith (.loop c.count (if n = serviceLoop then none else c.callSlot)
      ((List.range (maxAddress n)).map fun i => unitView n s (i + 1))))

/-! ## The sweep -/

/-- R46: a unit is due in the sweep of this count. -/
def unitDue (count : Nat) (u : UnitRec) : Bool := u.fitted && (u.online || decide (count = 0))

/-- The first due address from `a` on, among `fuel` addresses. -/
def firstDue (c : LoopCtx) : Nat → Nat → Option Nat
  | 0, _ => none
  | fuel + 1, a =>
    if unitDue c.count (Table.getD UnitRec.fresh c.units a) then some a else firstDue c fuel (a + 1)

/-- R46: the next due address of the sweep, in rising address order. -/
def nextDue (n : LoopId) (c : LoopCtx) : Option Nat :=
  firstDue c (maxAddress n - c.pos.getD 0) (c.pos.getD 0 + 1)

/-- R46: the sweep count steps on by one, from 7 back to 0. -/
def nextSweepCount (n : Nat) : Nat := (n + 1) % 8

/-- A sweep of the loop may begin: no reply is awaited and, once one has begun, no due unit is left in
it (log entry 5). -/
def mayBeginSweep (n : LoopId) (c : LoopCtx) : Bool :=
  !c.window && (!c.begun || (nextDue n c).isNone)

/-- R46, R59: a sweep begins: the count of the sweep before steps on, and a general call that waits is
sent. R46 does not say when the sweep position returns to "between sweeps": it does so here, and not
before (log entry 5, DESIGN CHOICE). -/
def begunSweep (c : LoopCtx) : LoopCtx :=
  { c with
    count := if c.begun then nextSweepCount c.count else c.count
    begun := true
    pos := none
    sent := match c.callSlot with
      | some code => some (.generalCall code)
      | none => c.sent
    callSlot := none }

/-- R46: SWEEP_START. -/
def startSweep (n : LoopId) (s : State) : State :=
  let c := s.loopAt n
  if mayBeginSweep n c then s.setLoop n (begunSweep c) else s

/-- R56, R60: the item of a poll. -/
def pollItem (n : LoopId) (a : Nat) (s : State) : Option Item :=
  match stallBehind n a with
  | some (l, k) =>
    let st := s.stallAt l k
    match st.display with
    | some code => some (.display code)
    | none => if st.lampDesired = st.lampReported then none else some (.lamp st.lampDesired)
  | none => (s.unitAt n a).pending.map .response

/-- R63: the barrier field of a poll, while the order differs from the reported position. -/
def pollBarrier (n : LoopId) (a : Nat) (s : State) : Option Arm :=
  match laneUnit? n a with
  | some i => if (s.laneAt i).order = (s.laneAt i).reported then none else some (s.laneAt i).order
  | none => none

/-- The display code a poll's item carries. -/
def carriedCode : Option Item → Option Nat
  | some (.display code) => some code
  | some (.lamp _) => none
  | some (.response _) => none
  | none => none

/-- R47: compose and send the poll of unit `a`; its ack owed is removed. -/
def sendPoll (n : LoopId) (a : Nat) (s : State) : State :=
  let item := pollItem n a s
  let frame := LoopFrame.poll a (s.unitAt n a).ackOwed item (pollBarrier n a s)
  let s1 := modUnit n a (fun u => { u with ackOwed := none, carried := carriedCode item }) s
  s1.setLoop n { s1.loopAt n with pos := some a, begun := true, window := true, sent := some frame }

/-- R46, R47: POLL of the next due unit. It is not sent while a reply is awaited (R48), nor in a first
sweep whose general call still waits (log entry 5). -/
def pollNext (n : LoopId) (s : State) : State :=
  let c := s.loopAt n
  if c.window || (!c.begun && c.callSlot.isSome) then s
  else
    match nextDue n c with
    | some a => sendPoll n a s
    | none => s

/-! ## Misses -/

/-- R53: the miss count after a miss (log entry 28). -/
def missedCount (u : UnitRec) : Nat := if u.online then min (u.miss + 1) 3 else 3

/-- R53: a missed reply of a fitted unit. -/
def missReply (n : LoopId) (a : Nat) (s : State) : State :=
  let u := s.unitAt n a
  if u.online ∧ missedCount u = 3 then
    raiseLink n a .postOffline .stationOffline (setOnline n a false 3 s)
  else modUnit n a (fun u => { u with miss := missedCount u }) s

/-- The reply window of a loop closes. -/
def closeWindow (n : LoopId) (s : State) : State := s.setLoop n { s.loopAt n with window := false }

/-- R48, R53: REPLY_WINDOW_EXPIRY. A unit unfitted meanwhile is left as it is (log entry 15). -/
def expireWindow (n : LoopId) (s : State) : State :=
  let c := s.loopAt n
  match c.window, c.pos with
  | true, some a =>
    if (s.unitAt n a).fitted then missReply n a (closeWindow n s) else closeWindow n s
  | true, none => closeWindow n s
  | false, _ => s

/-! ## Replies -/

/-- R54, R63: the states that an offline unit's first reply is read for at once. -/
def readFirstStates (n : LoopId) (a : Nat) (r : LoopReply) (s : State) : State :=
  match stallBehind n a with
  | some (l, k) => s.setStall l k { s.stallAt l k with lampReported := r.lamp }
  | none =>
    match laneUnit? n a with
    | some i => s.setLane i { s.laneAt i with reported := r.arm }
    | none => s

/-- R53, R54: the link. -/
def takeLink (n : LoopId) (a : Nat) (r : LoopReply) (s : State) : State :=
  if (s.unitAt n a).online then modUnit n a (fun u => { u with miss := 0 }) s
  else raiseLink n a .postOnline .postOnline (readFirstStates n a r (setOnline n a true 0 s))

/-- R52: the restart mark. -/
def takeRestart (n : LoopId) (a : Nat) (r : LoopReply) (s : State) : State :=
  if r.restart then
    modUnit n a (fun u =>
      { u with accepted := none, ackOwed := none, carried := none, pending := none }) s
  else s

/-- R57: a display still pending with the carried code has been delivered. -/
def deliveredDisplay (carried display : Option Nat) : Option Nat :=
  if carried.isSome ∧ carried = display then none else display

/-- R57, R58, R63: the unit's reported states. -/
def takeStates (n : LoopId) (a : Nat) (r : LoopReply) (s : State) : State :=
  match stallBehind n a with
  | some (l, k) =>
    let st := s.stallAt l k
    let s1 := s.setStall l k { st with
      display := deliveredDisplay (s.unitAt n a).carried st.display
      lampReported := r.lamp }
    modUnit n a (fun u => { u with carried := none }) s1
  | none =>
    match laneUnit? n a with
    | some i => s.setLane i { s.laneAt i with reported := r.arm }
    | none => s

/-- R60: the pending response left after a response-held mark. -/
def heldResponse (held : Option Bool) (p : Option PendingResponse) : Option PendingResponse :=
  match p with
  | some x => if held = some x.toggle then none else some x
  | none => none

/-- R60: the response-held mark, read from service units. -/
def takeHeld (n : LoopId) (a : Nat) (r : LoopReply) (s : State) : State :=
  if n = serviceLoop then modUnit n a (fun u => { u with pending := heldResponse r.held u.pending }) s
  else s

/-- R51, R61: a stall post's report, dropped when it is outside its class. -/
def postReport (l : Lot) (k : Nat) (body : Report) (s : State) : State :=
  match body with
  | .sensorPresent => (ownSensorPresent l k s).1
  | .sensorGone => (ownSensorGone l k s).1
  | .keyTag tag => (ownKeyTag tag l k s).1
  | .keyLine item qty => (ownKeyLine item qty l k s).1
  | .keySubmit intermission => (ownKeySubmit intermission l k s).1
  | .keyCancel => (ownKeyCancel l k s).1
  | _ => s

/-- R61: a request outside the unit's class. -/
def notPermitted (s : State) : State × Answer := (s, refuse .notPermitted)

/-- R51, R61: an entry lane terminal's request. -/
def entryRequest (i : Lot) (body : Report) : State → State × Answer :=
  match body with
  | .arrive => ownArrive i
  | .admitCar lot fee party => ownAdmit lot fee party i
  | .passed => ownPassed i
  | .left => ownLeft i
  | _ => notPermitted

/-- R51, R61: an exit lane terminal's request. -/
def exitRequest (i : Lot) (body : Report) : State → State × Answer :=
  match body with
  | .arrive => ownArrive i
  | .exit tag => ownExit tag i
  | .exitPassed => ownExitPassed i
  | .left => ownLeft i
  | _ => notPermitted

/-- R51, R61: a kitchen station's request. -/
def stationRequest (k : Fin 4) (body : Report) : State → State × Answer :=
  match body with
  | .take => ownTake k
  | .ready order => ownReadyStation order k
  | .remake order => ownRemake order
  | .soldOut item => ownSoldOut item
  | .backIn item => ownBackIn item
  | .discard order => ownDiscard order
  | _ => notPermitted

/-- R51, R61, R62: a handheld's request, through the bridge. -/
def bridgeRequest (h : Nat) (body : Report) : State → State × Answer :=
  match body with
  | .lookupStall lot stall => asHandheld h (withStall lot stall ownLookupStall)
  | .place tag lines => asHandheld h (ownPlaceHandheld (some tag) lines h)
  | .deliver order lot stall => asHandheld h (ownDeliver false order (some (lot, stall)))
  | .pay tag amount => asHandheld h (ownPay tag amount)
  | _ => notPermitted

/-- R51: the owner's step for a service unit's request. -/
def serviceRequest (a : Nat) (rep : ReplyReport) : State → State × Answer :=
  match lane? a with
  | some i => if isEntryLane i then entryRequest i rep.body else exitRequest i rep.body
  | none =>
    match stationUnit? a with
    | some k => stationRequest k rep.body
    | none => bridgeRequest rep.handheld rep.body

/-- R62: the handheld number that goes into the bridge's response. -/
def handheldOf (a : Nat) (rep : ReplyReport) : Option Nat :=
  if a = bridgeAddress then some rep.handheld else none

/-- R50: the unit record when a report is accepted with an outcome. -/
def acceptReport (toggle : Bool) (x : Outcome) (u : UnitRec) : UnitRec :=
  { u with
    accepted := some toggle, ackOwed := some { toggle := toggle, outcome := x }, lastOutcome := x }

/-- R50, R51, R60: a new report. -/
def newReport (n : LoopId) (a : Nat) (rep : ReplyReport) (s : State) : State :=
  match stallBehind n a with
  | some (l, k) => postReport l k rep.body (modUnit n a (acceptReport rep.toggle .taken) s)
  | none =>
    if (s.unitAt n a).pending.isSome then modUnit n a (acceptReport rep.toggle .busy) s
    else
      unitStep a rep.toggle (handheldOf a rep) (serviceRequest a rep)
        (modUnit n a (acceptReport rep.toggle .taken) s)

/-- R50: the ack owed again for a repeat. -/
def repeatReport (toggle : Bool) (u : UnitRec) : UnitRec :=
  { u with ackOwed := some { toggle := toggle, outcome := u.lastOutcome } }

/-- R50: the report of a reply, new or a repeat. -/
def takeReport (n : LoopId) (a : Nat) (r : LoopReply) (s : State) : State :=
  match r.report with
  | none => s
  | some rep =>
    if (s.unitAt n a).accepted = some rep.toggle then modUnit n a (repeatReport rep.toggle) s
    else newReport n a rep s

/-- R48: a reply is dealt with in order: link, restart mark, reported states, response-held mark,
report. -/
def takeReply (n : LoopId) (a : Nat) (r : LoopReply) (s : State) : State :=
  takeReport n a r (takeHeld n a r (takeStates n a r (takeRestart n a r (takeLink n a r s))))

/-- R48: a frame within the window is a reply when its check is right and its address that of the unit
polled. -/
def isReply (c : LoopCtx) (r : LoopReply) : Bool :=
  c.window && r.checkRight && decide (c.pos = some r.address)

/-- R48: LOOP_REPLY. A frame within the window that is no reply is a missed reply, as silence to its end
is (log entry 30); a frame after it is discarded. The reply of a unit unfitted meanwhile only closes the
window (log entry 15). -/
def receiveReply (n : LoopId) (r : LoopReply) (s : State) : State :=
  if isReply (s.loopAt n) r then
    if (s.unitAt n r.address).fitted then takeReply n r.address r (closeWindow n s)
    else closeWindow n s
  else expireWindow n s

/-! ## The rows -/

/-- SET_FITTED (R45). -/
def execSetFitted (seq : Byte) (loop address : Nat) (fitted : Bool) (s : State) :
    Host.Outcome State Fault Refusal :=
  .next (officeStep seq (ownSetFitted loop address fitted) s)
/-- READ_LOOP (R64). -/
def execReadLoop (seq : Byte) (loop : Nat) (s : State) : Host.Outcome State Fault Refusal :=
  .next (officeStep seq (ownReadLoop loop) s)
/-- SWEEP_START (R46, R59). -/
def execSweepStart (n : LoopId) (s : State) : Host.Outcome State Fault Refusal :=
  .next (startSweep n s)
/-- POLL (R47). -/
def execPoll (n : LoopId) (s : State) : Host.Outcome State Fault Refusal := .next (pollNext n s)
/-- LOOP_REPLY (R48 to R52, R54, R57, R58, R60 to R63). -/
def execLoopReply (n : LoopId) (r : LoopReply) (s : State) : Host.Outcome State Fault Refusal :=
  .next (receiveReply n r s)
/-- REPLY_WINDOW_EXPIRY (R53). -/
def execReplyWindowExpiry (n : LoopId) (s : State) : Host.Outcome State Fault Refusal :=
  .next (expireWindow n s)
/-- LOOP_LATE_FRAME_DISCARDED (R48): the frame is discarded. -/
def execLoopLateFrameDiscarded (_ : LoopId) (s : State) : Host.Outcome State Fault Refusal := .next s

end Sys2Proof.Machine
end

