-- ==== Sys2Proof/Machine/Programmes.lean ====
section
/-! DEFINITION. The Programme Store's commands (R65 to R77). -/

namespace Sys2Proof.Machine

/-! ## Entry checks and list checks -/

/-- R66: the reel label and level word of a REEL or SNIPE that arrives, checked and normalised; the flag
says that normalisation lost the word. -/
def prepareReel (make : Nat → LevelWord → Segment) (label : Option Nat) (level : Option LevelWord) :
    Option (Segment × Bool) :=
  match label, level with
  | some n, some w =>
    if 1 ≤ n ∧ n ≤ Config.maxLabel ∧ levelInRange w = true then
      some (make n (normalise w).1, (normalise w).2.isSome)
    else none
  | some _, none => none
  | none, _ => none

/-- R66: an entry that arrives in a request is checked and prepared; none is refused OUT_OF_RANGE. A field
its kind does not use is dropped. -/
def prepareEntry (p : EntryParam) : Option (Segment × Bool) :=
  match p.kind with
  | 0 => prepareReel .reel p.label p.level
  | 1 => prepareReel .snipe p.label p.level
  | 2 => p.duration.map fun d =>
      (.intermission (clamp Config.intermissionMin Config.intermissionMax d), false)
  | 3 => some (.finish, false)
  | _ => none

/-- R66: every entry of a list prepared, or none when one fails. -/
def prepareEntries : List EntryParam → Option (List (Segment × Bool))
  | [] => some []
  | p :: rest =>
    match prepareEntry p, prepareEntries rest with
    | some x, some xs => some (x :: xs)
    | some _, none => none
    | none, _ => none

/-- R67, third and fourth checks: END is last and only last, and every INTERMISSION is followed by a REEL
or SNIPE. -/
def entriesInOrder : List Segment → Bool
  | [] => false
  | .finish :: rest => rest.isEmpty
  | .intermission _ :: [] => false
  | .intermission _ :: e :: rest => isReelEntry e && entriesInOrder (e :: rest)
  | .reel _ _ :: rest => entriesInOrder rest
  | .snipe _ _ :: rest => entriesInOrder rest

/-- R67: a list is well formed. -/
def wellFormedProgramme (es : List Segment) : Bool :=
  decide (es.length ≤ Config.maxSegments) && (es.head?.map isReelEntry).getD false && entriesInOrder es

/-- R66, R133: LOSS met in preparing entries that are stored is added outside an evaluation. -/
def recordLoss (l : Lot) (lost : Bool) (s : State) : State :=
  if lost then addConditions l (Conds.single .LOSS) none s else s

/-! ## Load Programme -/

/-- R68: a projector that is TAILING or SPENT loses its threaded position. -/
def loadedOver (x : ProjCtx) : ProjCtx :=
  if x.state = .tailing ∨ x.state = .spent then { x with pos := none } else x

/-- R68: the booth after a load. -/
def loadedBooth (b : BoothCtx) : BoothCtx :=
  { b with
    state := .ready, current := none, start := none, latched := none,
    projA := loadedOver b.projA, projB := loadedOver b.projB }

/-- R68, R81: the list is stored and the booth goes READY; a load from ENDED hands cause SOURCE. -/
def loadWork (l : Lot) (es : List Segment) (lost : Bool) (s : State) : State :=
  let b := s.boothAt l
  let s1 := (recordLoss l lost (s.setProgramme l es)).setBooth l (loadedBooth b)
  if b.current.isSome then handOff l .silent .source none s1 else s1

/-- R68: Load Programme, through the checks in order. -/
def ownLoadProgramme (entries : List EntryParam) (l : Lot) (s : State) : State × Answer :=
  let b := s.boothAt l
  if b.state ≠ .dark ∧ b.state ≠ .ended then (s, refuse .badState)
  else if holdsEntry b.projA ∨ holdsEntry b.projB then (s, refuse .badState)
  else
    match prepareEntries entries with
    | none => (s, refuse .outOfRange)
    | some xs =>
      let es := xs.map fun x => x.1
      if wellFormedProgramme es then
        (boothStep l (loadWork l es (xs.any fun x => x.2)) s, okWith (.segments es))
      else (s, refuse .outOfRange)

/-! ## Edits -/

/-- R71, fifth to seventh checks: the mark of the booth that protects position `p`. -/
def protectedBy (b : BoothCtx) (p : Nat) : Option Status :=
  if b.current = some p then some .liveSegment
  else if b.latched.isSome ∧ (b.current.map fun c => c + 1) = some p then some .latched
  else if heldPos b.projA = some p ∨ heldPos b.projB = some p then some .badState
  else none

/-- R71, first to third checks: the lot's programme is not empty and `p` lies within it. -/
def editable (es : List Segment) (p : Nat) : Option Status :=
  if es.isEmpty then some .badState
  else if 1 ≤ p ∧ p ≤ es.length then none
  else some .outOfRange

/-- R69: a position at `p` or above is raised by one. -/
def raisedPos (p q : Nat) : Nat := if p ≤ q then q + 1 else q

/-- R69: a position above `p` is lowered by one. -/
def loweredPos (p q : Nat) : Nat := if p < q then q - 1 else q

/-- R69: the booth's positions after an Insert at `p`. -/
def raisePositions (p : Nat) (b : BoothCtx) : BoothCtx :=
  { b with
    current := b.current.map (raisedPos p)
    start := b.start.map (raisedPos p)
    projA := { b.projA with pos := b.projA.pos.map (raisedPos p) }
    projB := { b.projB with pos := b.projB.pos.map (raisedPos p) } }

/-- R69: a projector's position after a Delete at `p`: a TAILING or SPENT one at `p` loses it. -/
def lowerProjector (p : Nat) (x : ProjCtx) : ProjCtx :=
  if (x.state = .tailing ∨ x.state = .spent) ∧ x.pos = some p then { x with pos := none }
  else { x with pos := x.pos.map (loweredPos p) }

/-- R69: the booth's positions after a Delete at `p`. -/
def lowerPositions (p : Nat) (b : BoothCtx) : BoothCtx :=
  { b with
    current := b.current.map (loweredPos p)
    start := b.start.map (loweredPos p)
    projA := lowerProjector p b.projA
    projB := lowerProjector p b.projB }

/-- R73: the list after an Insert at `p`. -/
def insertedAt (es : List Segment) (p : Nat) (e : Segment) : List Segment :=
  es.take (p - 1) ++ e :: es.drop (p - 1)

/-- R72: Edit Segment. -/
def ownEditSegment (p : Nat) (entry : EntryParam) (l : Lot) (s : State) : State × Answer :=
  let es := s.programmeAt l
  match editable es p, prepareEntry entry, protectedBy (s.boothAt l) p with
  | some st, _, _ => (s, refuse st)
  | none, none, _ => (s, refuse .outOfRange)
  | none, some _, some st => (s, refuse st)
  | none, some (e, lost), none =>
    if wellFormedProgramme (es.set (p - 1) e) then
      (recordLoss l lost (s.setProgramme l (es.set (p - 1) e)), okWith (.segment e none))
    else (s, refuse .outOfRange)

/-- R73: Insert Segment. -/
def ownInsertSegment (p : Nat) (entry : EntryParam) (l : Lot) (s : State) : State × Answer :=
  let es := s.programmeAt l
  match editable es p, prepareEntry entry, protectedBy (s.boothAt l) p with
  | some st, _, _ => (s, refuse st)
  | none, none, _ => (s, refuse .outOfRange)
  | none, some _, some st => (s, refuse st)
  | none, some (e, lost), none =>
    if wellFormedProgramme (insertedAt es p e) then
      (recordLoss l lost
        ((s.setProgramme l (insertedAt es p e)).setBooth l (raisePositions p (s.boothAt l))),
        okWith (.segment e (some (es.length + 1))))
    else (s, refuse .outOfRange)

/-- R74: Delete Segment. -/
def ownDeleteSegment (p : Nat) (l : Lot) (s : State) : State × Answer :=
  let es := s.programmeAt l
  match editable es p, protectedBy (s.boothAt l) p with
  | some st, _ => (s, refuse st)
  | none, some st => (s, refuse st)
  | none, none =>
    if wellFormedProgramme (es.eraseIdx (p - 1)) then
      ((s.setProgramme l (es.eraseIdx (p - 1))).setBooth l (lowerPositions p (s.boothAt l)),
        okWith (.values [some (es.length - 1)]))
    else (s, refuse .outOfRange)

/-- R77: the programme with the marks of R69. The position of a projector is its threaded position in every
state, ON_SCREEN, TAILING and SPENT too (log entry 39, DESIGN CHOICE). -/
def ownReadProgramme (l : Lot) (s : State) : State × Answer :=
  let b := s.boothAt l
  (s, okWith (.programme (s.programmeAt l) b.current
    (if b.latched.isSome then b.current.map fun c => c + 1 else none) b.projA b.projB))

/-! ## The rows -/

/-- LOAD_PROGRAMME (R68). -/
def execLoadProgramme (seq : Byte) (lot : Nat) (entries : List EntryParam) (s : State) :
    Host.Outcome State Fault Refusal :=
  .next (officeStep seq (withLot lot (ownLoadProgramme entries)) s)
/-- EDIT_SEGMENT (R72). -/
def execEditSegment (seq : Byte) (lot p : Nat) (entry : EntryParam) (s : State) :
    Host.Outcome State Fault Refusal :=
  .next (officeStep seq (withLot lot (ownEditSegment p entry)) s)
/-- INSERT_SEGMENT (R73). -/
def execInsertSegment (seq : Byte) (lot p : Nat) (entry : EntryParam) (s : State) :
    Host.Outcome State Fault Refusal :=
  .next (officeStep seq (withLot lot (ownInsertSegment p entry)) s)
/-- DELETE_SEGMENT (R74). -/
def execDeleteSegment (seq : Byte) (lot p : Nat) (s : State) : Host.Outcome State Fault Refusal :=
  .next (officeStep seq (withLot lot (ownDeleteSegment p)) s)
/-- READ_PROGRAMME (R77). -/
def execReadProgramme (seq : Byte) (lot : Nat) (s : State) : Host.Outcome State Fault Refusal :=
  .next (officeStep seq (withLot lot ownReadProgramme) s)

end Sys2Proof.Machine
end

