-- ==== Sys2Proof/Machine/Session.lean ====
section
/-! DEFINITION. The Office Link Port's own commands and the part's time base (R183, R186 to R190). -/

namespace Sys2Proof.Machine

/-! ## The time base -/

/-- R190: the second after `n`. -/
def nextSecond (n : Nat) : Nat := if Config.dayLength ≤ n + 1 then 0 else n + 1

/-- A running count of seconds, lowered by one, not below zero. -/
def lowered (d : Option Nat) : Option Nat := d.map fun n => n - 1

/-- One second passes for a pass (R17, R18). -/
def tickPass (p : PassRec) : PassRec := { p with transit := lowered p.transit }
/-- One second passes for a stall (R19). -/
def tickStall (st : StallRec) : StallRec := { st with grace := lowered st.grace }
/-- One second passes for a booth (R78). -/
def tickBooth (b : BoothCtx) : BoothCtx :=
  { b with intermission := lowered b.intermission, preRoll := lowered b.preRoll }
/-- One second passes for a channel (R138). -/
def tickChannel (c : ChannelCtx) : ChannelCtx :=
  { c with announceDeadline := lowered c.announceDeadline }
/-- One second passes for an order (R153). -/
def tickOrder (o : OrderRec) : OrderRec := { o with draftDeadline := lowered o.draftDeadline }

/-- The second is counted: the site clock rises and every running count is lowered. -/
def countSecond (s : State) : State :=
  { s with
    olp := { s.olp with clock := nextSecond s.olp.clock }
    passes := Table.mapV (fun _ p => tickPass p) s.passes
    stalls := s.stalls.map (Table.mapD StallRec.fresh fun _ st => tickStall st)
    booths := s.booths.map tickBooth
    channels := s.channels.map tickChannel
    orders := Table.mapV (fun _ o => tickOrder o) s.orders
    agingCount := s.agingCount - 1 }

/-- The expiries due: those whose count stands at zero, pass by pass, stall by stall, order by order, then
by lot, and the aging timer last. -/
def dueExpiries (s : State) : List (State → State) :=
  (s.passes.filter fun kv => decide (kv.2.transit = some 0)).map (fun kv => expireTransit kv.1) ++
    allLots.flatMap (fun l =>
      ((bankGet s.stalls l).filter fun kv => decide (kv.2.grace = some 0)).map
        fun kv => expireGrace l kv.1) ++
    (s.orders.filter fun kv => decide (kv.2.draftDeadline = some 0)).map (fun kv => expireDraft kv.1) ++
    (allLots.filter fun l => preRollDue (s.boothAt l)).map expirePreRoll ++
    (allLots.filter fun l => intermissionDue (s.boothAt l)).map expireIntermission ++
    (allLots.filter fun l => announcementDue (s.channelAt l)).map expireAnnouncement ++
    (if s.agingCount = 0 then [expireAging] else [])

/-- Every expiry due is taken, in order. -/
def takeExpiries (s : State) : State := (dueExpiries s).foldl (fun t work => work t) s

/-- R190 and the timer rules: one second of the part's own time base. An expiry is a row of its own, taken
while its count stands at zero; one not yet taken when the next second comes is taken first (log entry
4). -/
def tickSecond (s : State) : State := countSecond (takeExpiries s)

/-! ## Responses and notices -/

/-- R183: the response is read when its every byte has been shifted out. -/
def responseTaken (s : State) : State := s.setOlp { s.olp with slot := none }

/-- R186: Read Notices returns the whole set and empties it. -/
def ownReadNotices (s : State) : State × Answer :=
  (s.setOlp { s.olp with notices := Vector.replicate 15 Notice.clear },
    okWith (.notices s.olp.notices))

/-! ## The session -/

/-- R24: the counters of a lot that Open Session clears. -/
def openedLot (r : LotRec) : LotRec :=
  { r with
    admittedCar := 0, admittedVan := 0, admittedPassholder := 0, admittedComp := 0, exits := 0,
    unsettled := 0 }

/-- R187, R24: Open Session. R187 says that no pass is live and the order table is empty in CLOSED; orders
that the office's PLACE put there (log entry 29) stand as they are, and nothing is tested (log entry 33,
DESIGN CHOICE). -/
def ownOpenSession (s : State) : State × Answer :=
  if s.olp.session = .closed then
    let s1 : State := { s with lots := s.lots.map openedLot, untagged := 0 }
    let s2 := s1.setOlp { s1.olp with tagSeq := 1, orderSeq := 1, placeSeq := 1 }
    (changeSession .open s2, okWith .none)
  else (s, refuse .badState)

/-- R187: Close Session answers the state it leaves. -/
def ownCloseSession (s : State) : State × Answer :=
  if s.olp.session = .open then
    let s1 := closeIfEmpty (changeSession .closing s)
    (s1, okWith (.session s1.olp.session))
  else (s, refuse .badState)

/-- R165, R180: every order is freed, every draft order field, queue, held list and stack emptied. -/
def freeAllOrders (s : State) : State :=
  { s with
    orders := [], queue := [], held := []
    stalls := s.stalls.map (Table.mapD StallRec.fresh fun _ st => { st with draft := none })
    stations := s.stations.map fun c => { c with stack := [] } }

/-- R25: an OCCUPIED, VACATED or ARRIVED stall goes FREE. -/
def freedStall (st : StallRec) : StallRec :=
  match st.state with
  | .free => st
  | .outOfService => st
  | .arrived => { st with state := .free, tag := none, grace := none }
  | .occupied => { st with state := .free, tag := none, grace := none }
  | .vacated => { st with state := .free, tag := none, grace := none }

/-- R25: one live pass retired without the order step. -/
def retireAtClose (s : State) (tag : Nat) : State :=
  match s.passAt tag with
  | some p => retireCore tag p s
  | none => s

/-- R25: every live pass is retired and every stall holding a car freed. -/
def retireAll (s : State) : State :=
  let s1 := (s.passes.map fun kv => kv.1).foldl retireAtClose s
  { s1 with
    passes := []
    stalls := s1.stalls.map (Table.mapD StallRec.fresh fun _ st => freedStall st) }

/-- R189: the four steps of Force Close. -/
def forceCloseWork (s : State) : State :=
  let s1 := if s.olp.session = .open then changeSession .closing s else s
  raiseSite .sessionClosed (changeSession .closed (retireAll (freeAllOrders s1)))

/-- R187, R189: Force Close answers the passes retired and the orders freed. -/
def ownForceClose (s : State) : State × Answer :=
  if s.olp.session = .closed then (s, refuse .badState)
  else (forceCloseWork s, okWith (.values [some s.passes.length, some s.orders.length]))

/-! ## The site clock -/

/-- R190, R185: Set Clock. -/
def ownSetClock (time : Nat) (s : State) : State × Answer :=
  let v := clamp 0 (Config.dayLength - 1) time
  (s.setOlp { s.olp with clock := v }, okWith (.clock v))

/-- R190: Read Clock. -/
def ownReadClock (s : State) : State × Answer := (s, okWith (.clock s.olp.clock))

/-! ## The rows -/

/-- POWER_ON_RESET (R1, R5, R27, R44, R65, R78, R79, R103, R128, R145, R183, R186, R187, R190). The
queue of waiting commands is the model's and is kept. -/
def execPowerOnReset (s : State) : Host.Outcome State Fault Refusal :=
  .next { State.reset with pending := s.pending }
/-- SITE_CLOCK_TICK (R190). -/
def execSiteClockTick (s : State) : Host.Outcome State Fault Refusal := .next (tickSecond s)
/-- RESPONSE_READ (R183). -/
def execResponseRead (s : State) : Host.Outcome State Fault Refusal := .next (responseTaken s)
/-- READ_NOTICES (R186). -/
def execReadNotices (seq : Byte) (s : State) : Host.Outcome State Fault Refusal :=
  .next (officeStep seq ownReadNotices s)
/-- OPEN_SESSION (R187). -/
def execOpenSession (seq : Byte) (s : State) : Host.Outcome State Fault Refusal :=
  .next (officeStep seq ownOpenSession s)
/-- CLOSE_SESSION (R187). -/
def execCloseSession (seq : Byte) (s : State) : Host.Outcome State Fault Refusal :=
  .next (officeStep seq ownCloseSession s)
/-- FORCE_CLOSE (R189). -/
def execForceClose (seq : Byte) (s : State) : Host.Outcome State Fault Refusal :=
  .next (officeStep seq ownForceClose s)
/-- SET_CLOCK (R190). -/
def execSetClock (seq : Byte) (time : Nat) (s : State) : Host.Outcome State Fault Refusal :=
  .next (officeStep seq (ownSetClock time) s)
/-- READ_CLOCK (R190). -/
def execReadClock (seq : Byte) (s : State) : Host.Outcome State Fault Refusal :=
  .next (officeStep seq ownReadClock s)

end Sys2Proof.Machine
end

