-- ==== Sys2Proof/Machine/Office.lean ====
section
/-! DEFINITION. The office link's transfers (R182 to R184): the frame taken at the release of select, and
the bytes of the response that stands in the slot ("central layouts"). -/

namespace Sys2Proof.Machine

/-! ## Requests by frame -/

/-- R184: a request that passes the frame checks, handed to its owner. Commands that no frame spells
change nothing here. -/
def runRequest (i : Instr) (s : State) : Host.Outcome State Fault Refusal :=
  match i with
  | .readNotices q => execReadNotices q s
  | .openSession q => execOpenSession q s
  | .closeSession q => execCloseSession q s
  | .forceClose q => execForceClose q s
  | .setClock q t => execSetClock q t s
  | .readClock q => execReadClock q s
  | .readPass q t => execReadPass q t s
  | .findTag q t => execFindTag q t s
  | .readStall q l n => execReadStall q l n s
  | .readLot q l => execReadLot q l s
  | .retirePass q t => execRetirePass q t s
  | .setCapacity q l v => execSetCapacity q l v s
  | .setHeadLimit q l v => execSetHeadLimit q l v s
  | .setExitPolicy q l p => execSetExitPolicy q l p s
  | .setLotLevels q l p h r => execSetLotLevels q l p h r s
  | .setTimers q t g => execSetTimers q t g s
  | .setOutOfService q l n => execSetOutOfService q l n s
  | .clearOutOfService q l n => execClearOutOfService q l n s
  | .sensorPresent o l n => execSensorPresent o l n s
  | .sensorGone o l n => execSensorGone o l n s
  | .keyTag o l n t => execKeyTag o l n t s
  | .lookupStall o l n => execLookupStall o l n s
  | .arrive o i => execArrive o i s
  | .admitCar o i l f n => execAdmit o i l f n s
  | .passed o i => execPassed o i s
  | .left o i => execLeft o i s
  | .exit o i t => execExit o i t s
  | .exitPassed o i => execExitPassed o i s
  | .exitUntagged q i => execExitUntagged q i s
  | .readLane q i => execReadLane q i s
  | .setFitted q n a b => execSetFitted q n a b s
  | .readLoop q n => execReadLoop q n s
  | .loadProgramme q l es => execLoadProgramme q l es s
  | .editSegment q l p e => execEditSegment q l p e s
  | .insertSegment q l p e => execInsertSegment q l p e s
  | .deleteSegment q l p => execDeleteSegment q l p s
  | .readProgramme q l => execReadProgramme q l s
  | .startShow q l => execStartShow q l s
  | .halt q l => execHalt q l s
  | .resume q l p => execResume q l p s
  | .clearBooth q l => execClearBooth q l s
  | .setMotorLead q l v => execSetMotorLead q l v s
  | .readBooth q l => execReadBooth q l s
  | .readLine q l b => execReadLine q l b s
  | .setTrim q l w => execSetTrim q l w s
  | .setCorrection q l w => execSetCorrection q l w s
  | .setCorrectionLimits q l w x => execSetCorrectionLimits q l w x s
  | .setFillLevel q l w => execSetFillLevel q l w s
  | .setDuckLevel q l w => execSetDuckLevel q l w s
  | .setTarget q l w => execSetTarget q l w s
  | .setAutoLevel q l b => execSetAutoLevel q l b s
  | .setUnderflowPolicy q l p => execSetUnderflowPolicy q l p s
  | .setMaster q w => execSetMaster q w s
  | .announce q m d => execAnnounce q m d s
  | .announceEnd q m => execAnnounceEnd q m s
  | .setAlertMask q l m => execSetAlertMask q l m s
  | .clearConditions q l => execClearConditions q l s
  | .readChannel q l => execReadChannel q l s
  | .place o t v ls => execPlace o t v ls s
  | .deliver o n st => execDeliver o n st s
  | .pay o t m => execPay o t m s
  | .cancelOrder q n => execCancelOrder q n s
  | .discard o n => execDiscard o n s
  | .soldOut o n => execSoldOut o n s
  | .backIn o n => execBackIn o n s
  | .setPrice q n v => execSetPrice q n v s
  | .readOrder q n => execReadOrder q n s
  | .ordersOfTag q t => execOrdersOfTag q t s
  | .readPrices q a b => execReadPrices q a b s
  | .readLotWindow q l => execReadLotWindow q l s
  | .keyLine o l n i v => execKeyLine o l n i v s
  | .keySubmit o l n b => execKeySubmit o l n b s
  | .keyCancel o l n => execKeyCancel o l n s
  | .take o k => execTake o k s
  | .ready o n => execReady o n s
  | .remake o n => execRemake o n s
  | .setLevel q n v => execSetLevel q n v s
  | .requeueStation q k => execRequeueStation q k s
  | .setBaseFloor q k v => execSetBaseFloor q k v s
  | .setAgingPeriod q v => execSetAgingPeriod q v s
  | .readQueue q => execReadQueue q s
  | .readStation q k => execReadStation q k s
  | .powerOnReset => .next s
  | .siteClockTick => .next s
  | .officeTransfer _ => .next s
  | .responseRead => .next s
  | .transitExpiry _ => .next s
  | .graceExpiry _ _ => .next s
  | .sweepStart _ => .next s
  | .poll _ => .next s
  | .loopReply _ _ => .next s
  | .replyWindowExpiry _ => .next s
  | .loopLateFrameDiscarded _ => .next s
  | .threaded _ _ _ => .next s
  | .unloaded _ _ => .next s
  | .motorUp _ _ => .next s
  | .cueMotor _ _ => .next s
  | .cueChange _ _ => .next s
  | .runout _ _ => .next s
  | .filmBreak _ _ => .next s
  | .preRollExpiry _ => .next s
  | .intermissionExpiry _ => .next s
  | .boothLineDown _ => .next s
  | .ack _ _ => .next s
  | .ackDeadlineExpiry _ => .next s
  | .hello _ => .next s
  | .boothFrameDropped _ => .next s
  | .probe _ _ => .next s
  | .announcementExpiry _ => .next s
  | .draftExpiry _ => .next s
  | .agingExpiry => .next s

/-- OFFICE_TRANSFER (R182): the frame is checked and handed to its owner, or answered with the status of
the check it fails. -/
def execOfficeTransfer (bytes : List Byte) (s : State) : Host.Outcome State Fault Refusal :=
  match Decode.decodeFrame bytes with
  | .nothing => .next s
  | .frameError q => .next (giveOffice q (refuse .frameError) s)
  | .unknownRequest q => .next (giveOffice q (refuse .unknownRequest) s)
  | .badField q => .next (giveOffice q (refuse .outOfRange) s)
  | .request i => runRequest i s

/-! ## Response bytes -/

/-- "Central layouts": the number of a lamp in the order the manual lists the values. -/
def lampNumber : Lamp → Nat
  | .off => 0
  | .steady => 1
  | .flash => 2

/-- R2, listed order. -/
def passStateNumber : PassState → Nat
  | .inLane => 0
  | .inTransit => 1
  | .parked => 2

/-- R7, listed order. -/
def exitPolicyNumber : ExitPolicy → Nat
  | .hold => 0
  | .open => 1

/-- R7, listed order. -/
def windowNumber : Window → Nat
  | .open => 0
  | .rush => 1
  | .closed => 2

/-- R27, listed order. -/
def laneStateNumber : LaneState → Nat
  | .idle => 0
  | .occupied => 1
  | .admitted => 2
  | .released => 2

/-- R27, listed order. -/
def armNumber : Arm → Nat
  | .up => 0
  | .down => 1

/-- R66, listed order. -/
def segmentKindNumber : Segment → Nat
  | .reel _ _ => 0
  | .snipe _ _ => 1
  | .intermission _ => 2
  | .finish => 3

/-- R78, listed order. -/
def boothStateNumber : BoothState → Nat
  | .dark => 0
  | .ready => 1
  | .starting => 2
  | .running => 3
  | .changeoverPending => 4
  | .intermission => 5
  | .lateStart => 6
  | .halted => 7
  | .ended => 8

/-- R79, listed order. -/
def projStateNumber : ProjState → Nat
  | .empty => 0
  | .threaded => 1
  | .starting => 2
  | .atSpeed => 3
  | .onScreen => 4
  | .tailing => 5
  | .spent => 6

/-- R78, listed order. -/
def haltReasonNumber : HaltReason → Nat
  | .filmBreak => 0
  | .runout => 1
  | .lineDown => 2
  | .officeHalt => 3

/-- R128, listed order. -/
def sourceNumber : Source → Nat
  | .projA => 0
  | .projB => 1
  | .fill => 2
  | .silent => 3

/-- R128, listed order. -/
def policyNumber : Policy → Nat
  | .flush => 0
  | .floor => 1

/-- R128, listed order. -/
def causeNumber : Cause → Nat
  | .segment => 0
  | .source => 1
  | .trim => 2
  | .master => 3
  | .probe => 4
  | .duckOn => 5
  | .duckOff => 6
  | .limits => 7

/-- See `lampNumber`. -/
def stallStateNumber : StallState → Nat
  | .free => 0
  | .arrived => 1
  | .occupied => 2
  | .vacated => 3
  | .outOfService => 4

/-- See `lampNumber`. -/
def feeNumber : FeeClass → Nat
  | .car => 0
  | .van => 1
  | .passholder => 2
  | .comp => 3

/-- See `lampNumber`. -/
def orderStateNumber : OrderState → Nat
  | .draft => 0
  | .held => 1
  | .placed => 2
  | .inPrep => 3
  | .ready => 4
  | .unclaimed => 5

/-- See `lampNumber`. -/
def orderSourceNumber : OrderSource → Nat
  | .post => 0
  | .handheld => 1
  | .office => 2

/-- A four-byte field, high byte first. -/
def enc4 (n : Nat) : List Byte := Decode.enc2 (n / 65536) ++ Decode.enc2 n

/-- Pass read-out, 19 bytes. -/
def passBytes (tag : Nat) (p : PassRec) : List Byte :=
  Decode.enc2 tag ++ Decode.enc1 (passStateNumber p.state) ++ Decode.enc1 (lotNumber p.lot) ++
    Decode.enc1 (feeNumber p.fee) ++ Decode.enc1 p.party ++
    [Decode.markBit p.lane 0 ||| Decode.markBit p.stall 1 ||| Decode.markBit p.transit 2] ++
    Decode.enc1 (p.lane.getD 0) ++ Decode.enc2 (p.stall.getD 0) ++ Decode.enc3 p.admitTime ++
    Decode.enc2 (p.transit.getD 0) ++ Decode.encF p.overdue ++ Decode.enc3 p.tab

/-- Stall read-out, 16 bytes. -/
def stallBytes (l : Lot) (n : Nat) (st : StallRec) : List Byte :=
  Decode.enc1 (lotNumber l) ++ Decode.enc2 n ++ Decode.enc1 (stallStateNumber st.state) ++
    [Decode.markBit st.tag 0 ||| Decode.markBit st.grace 1 ||| Decode.markBit st.display 2 |||
      Decode.markBit st.draft 3] ++
    Decode.enc2 (st.tag.getD 0) ++ Decode.enc2 (st.grace.getD 0) ++
    Decode.enc1 (lampNumber st.lampDesired) ++ Decode.encF st.online ++
    Decode.enc1 (lampNumber st.lampReported) ++ Decode.enc1 (st.display.getD 0) ++
    Decode.enc2 (st.draft.getD 0) ++ Decode.encF (decide (st.state = .outOfService))

/-- A line of the order read-out. -/
def lineBytes : List OrderLine → List Byte
  | [] => []
  | x :: rest => Decode.enc1 x.item ++ Decode.enc1 x.qty ++ Decode.enc2 x.price ++ lineBytes rest

/-- Order read-out, 25 bytes and 4 for each line. -/
def orderBytes (n : Nat) (o : OrderRec) : List Byte :=
  Decode.enc2 n ++ Decode.enc1 (orderStateNumber o.state) ++ Decode.enc1 (orderSourceNumber o.source) ++
    [Decode.markBit o.tag 0 ||| Decode.markBit o.level 1 ||| Decode.markBit o.station 2 |||
      Decode.markBit o.draftDeadline 3] ++
    Decode.enc2 (o.tag.getD 0) ++ Decode.enc1 (o.level.getD 0) ++ enc4 (o.seq.getD 0) ++
    Decode.enc2 o.total ++ Decode.enc3 (o.placedTime.getD 0) ++ Decode.enc3 (o.lastRaise.getD 0) ++
    Decode.enc1 (o.station.getD 0) ++ Decode.enc2 (o.draftDeadline.getD 0) ++
    Decode.enc1 o.lines.length ++ Decode.enc1 0 ++ lineBytes o.lines

/-- One byte of the notice read-out: bit 7 pending, bits 6 to 1 lots 6 to 1, bit 0 the site. -/
def noticeByte (x : Notice) : Byte :=
  (if x.pending then BitVec.twoPow 8 7 else 0) ||| x.mask.setWidth 8

/-- R187, listed order: CLOSED, OPEN, CLOSING. -/
def sessionNumber : Session → Nat
  | .closed => 0
  | .open => 1
  | .closing => 2

/-- R79, listed order. -/
def projectorNumber : Projector → Nat
  | .a => 0
  | .b => 1

/-- A part of a response's data: bytes that the manual lays out, or what it does not. -/
inductive Piece
  | laid (bytes : List Byte)
  | gap
deriving DecidableEq, Repr

/-- A field with a named set of values: one byte, its number in listed order. -/
def Piece.named (n : Nat) : Piece := .laid (Decode.enc1 n)

/-- A time of day: three bytes. -/
def Piece.time (n : Nat) : Piece := .laid (Decode.enc3 n)

/-- A level word (R114). -/
def Piece.word (w : LevelWord) : Piece := .laid (Decode.encW w)

/-- A segment entry: its kind and its level word, zeros where it has none. -/
def segmentPieces (e : Segment) : List Piece :=
  [.named (segmentKindNumber e), .gap, .word ((entryLevel e).getD trueZero), .gap]

/-- The latched copy of a booth, zeros where it is absent. -/
def latchedPieces (e : Option Segment) : List Piece :=
  [.named ((e.map segmentKindNumber).getD 0), .gap, .word ((e.bind entryLevel).getD trueZero), .gap]

/-- R77, R102: a projector's position and state. -/
def projectorPieces (c : ProjCtx) : List Piece := [.gap, .named (projStateNumber c.state)]

/-- R181: an entry of the queue or the held list ends in its two times, zeros where they are absent. -/
def queuePieces (v : QueueView) : List Piece :=
  [.gap, .time (v.placedTime.getD 0), .time (v.lastRaise.getD 0)]

/-- R42: a lane context, its kind ENTRY or EXIT. -/
def lanePieces (i : Lot) (c : LaneCtx) : List Piece :=
  [.gap, .named (if isEntryLane i then 0 else 1), .named (laneStateNumber c.state), .gap,
    .named (armNumber c.order), .named (armNumber c.reported), .gap]

/-- R144: a channel context in the order the rule names its fields, and the site master. -/
def channelPieces (c : ChannelCtx) (master : LevelWord) : List Piece :=
  [.gap, .word c.segLevel, .named (sourceNumber c.source), .word c.trim, .word c.corr, .word c.cMin,
    .word c.cMax, .word c.target, .gap, .word c.fill, .word c.duck, .gap,
    .named (policyNumber c.policy), .word c.gain, .gap,
    .named ((c.lastCause.map causeNumber).getD 0), .gap, .word master]

/-- "Central layouts": the parts of a response's data in the order the rule names them. Read-outs, level
words, times of day and fields with a named set of values are laid out; the rest is not (log entry 2). -/
def pieces (d : Data) : List Piece :=
  match d with
  | .none => []
  | .values _ => [.gap]
  | .clock t => [.time t]
  | .found x _ _ _ => [.gap, .named (passStateNumber x), .gap]
  | .admitted _ _ fee _ t => [.gap, .named (feeNumber fee), .gap, .time t]
  | .pass tag p => [.laid (passBytes tag p)]
  | .stall l n st => [.laid (stallBytes l n st)]
  | .order n o => [.laid (orderBytes n o)]
  | .notices ns => [.laid (ns.toList.map noticeByte)]
  | .lot r _ => [.gap, .named (exitPolicyNumber r.policy), .gap]
  | .lane i c => lanePieces i c
  | .loop _ _ _ => [.gap]
  | .segments es => .gap :: es.flatMap segmentPieces
  | .segment e _ => .gap :: segmentPieces e
  | .programme es _ _ a b =>
    .gap :: es.flatMap segmentPieces ++ projectorPieces a ++ projectorPieces b ++ [.gap]
  | .booth b =>
    [.gap, .named (boothStateNumber b.state), .gap] ++ latchedPieces b.latched ++
      [.named ((b.haltReason.map haltReasonNumber).getD 0), .gap,
        .named (projStateNumber b.projA.state), .gap, .named (projStateNumber b.projB.state), .gap]
  | .projector p => [.named (projectorNumber p)]
  | .line c => [.gap, .named (if c.up then 0 else 1), .gap]
  | .word w => [.word w]
  | .words a b c => [.word a, .word b, .word c]
  | .channel c _ m => channelPieces c m
  | .conds _ => [.gap]
  | .lookup none => [.gap]
  | .lookup (some x) => .gap :: x.2.2.flatMap fun v => [.named (orderStateNumber v.state), .gap]
  | .orders os => .gap :: os.flatMap fun v => [.named (orderStateNumber v.state), .gap]
  | .leveled v => [.gap, .named (orderStateNumber v.state), .gap]
  | .prices _ => [.gap]
  | .window w _ _ _ => [.gap, .named (windowNumber w), .gap]
  | .placed _ _ _ _ x => [.gap, .named (orderStateNumber x), .gap]
  | .taken _ _ _ _ _ => [.gap]
  | .readied _ x _ _ => [.gap, .named (orderStateNumber x), .gap]
  | .requeued _ _ => [.gap]
  | .queue q h _ _ => q.flatMap queuePieces ++ .gap :: h.flatMap queuePieces ++ [.gap]
  | .station _ _ _ vs => .gap :: vs.flatMap fun v => [.named (orderStateNumber v.state), .gap]
  | .session x => [.named (sessionNumber x)]

/-- The bytes of a response's parts from the `i`-th on; a gap is a free value (log entry 2). -/
def piecesBytes (d : Data) : Nat → List Piece → List Byte
  | _, [] => []
  | i, .laid bytes :: rest => bytes ++ piecesBytes d (i + 1) rest
  | i, .gap :: rest => Config.unstatedLayout (d, i) ++ piecesBytes d (i + 1) rest

/-- The data bytes of a response. -/
def dataBytes (d : Data) : List Byte := piecesBytes d 0 (pieces d)

/-- The status byte: bit 7 OVERRUN, bits 6 to 0 the status code. -/
def statusByte (r : Response) : Byte :=
  (if r.overrun then BitVec.twoPow 8 7 else 0) ||| BitVec.ofNat 8 (statusCode r.answer.status)

/-- The frame of a response. -/
def responseFrame (r : Response) : List Byte :=
  let ds := dataBytes r.answer.data
  let body := Decode.enc2 (ds.length + 5) ++ [statusByte r, r.seq] ++ ds
  body ++ [0 - Decode.byteSum body]

/-- R183: the frame of the response that stands unread in the slot, if one does. -/
def State.unreadFrame (s : State) : List Byte := (s.olp.slot.map responseFrame).getD []

/-- R183: the `n` bytes that data out carries in a transfer of `n` bytes: the response that stands in the
slot from its first byte, and bytes of 0 when none is unread. -/
def State.dataOut (s : State) (n : Nat) : List Byte :=
  (s.unreadFrame ++ List.replicate n 0).take n

end Sys2Proof.Machine
end

