-- ==== Sys2Proof/Machine/Dispatch.lean ====
section
/-! DEFINITION. The dispatch: one arm per row of spec/opcode_table.json. -/

namespace Sys2Proof.Machine

def exec (i : Instr) (s : State) : Host.Outcome State Fault Refusal :=
  match i with
  | .powerOnReset => Sys2Proof.Machine.execPowerOnReset s
  | .siteClockTick => Sys2Proof.Machine.execSiteClockTick s
  | .officeTransfer bytes => Sys2Proof.Machine.execOfficeTransfer bytes s
  | .responseRead => Sys2Proof.Machine.execResponseRead s
  | .readNotices seq => Sys2Proof.Machine.execReadNotices seq s
  | .openSession seq => Sys2Proof.Machine.execOpenSession seq s
  | .closeSession seq => Sys2Proof.Machine.execCloseSession seq s
  | .forceClose seq => Sys2Proof.Machine.execForceClose seq s
  | .setClock seq time => Sys2Proof.Machine.execSetClock seq time s
  | .readClock seq => Sys2Proof.Machine.execReadClock seq s
  | .readPass seq tag => Sys2Proof.Machine.execReadPass seq tag s
  | .findTag seq tag => Sys2Proof.Machine.execFindTag seq tag s
  | .readStall seq lot stall => Sys2Proof.Machine.execReadStall seq lot stall s
  | .readLot seq lot => Sys2Proof.Machine.execReadLot seq lot s
  | .retirePass seq tag => Sys2Proof.Machine.execRetirePass seq tag s
  | .setCapacity seq lot value => Sys2Proof.Machine.execSetCapacity seq lot value s
  | .setHeadLimit seq lot value => Sys2Proof.Machine.execSetHeadLimit seq lot value s
  | .setExitPolicy seq lot policy => Sys2Proof.Machine.execSetExitPolicy seq lot policy s
  | .setLotLevels seq lot post handheld rush => Sys2Proof.Machine.execSetLotLevels seq lot post handheld rush s
  | .setTimers seq transit grace => Sys2Proof.Machine.execSetTimers seq transit grace s
  | .setOutOfService seq lot stall => Sys2Proof.Machine.execSetOutOfService seq lot stall s
  | .clearOutOfService seq lot stall => Sys2Proof.Machine.execClearOutOfService seq lot stall s
  | .sensorPresent o lot stall => Sys2Proof.Machine.execSensorPresent o lot stall s
  | .sensorGone o lot stall => Sys2Proof.Machine.execSensorGone o lot stall s
  | .keyTag o lot stall tag => Sys2Proof.Machine.execKeyTag o lot stall tag s
  | .lookupStall o lot stall => Sys2Proof.Machine.execLookupStall o lot stall s
  | .transitExpiry tag => Sys2Proof.Machine.execTransitExpiry tag s
  | .graceExpiry l stall => Sys2Proof.Machine.execGraceExpiry l stall s
  | .arrive o lane => Sys2Proof.Machine.execArrive o lane s
  | .admitCar o lane lot fee party => Sys2Proof.Machine.execAdmit o lane lot fee party s
  | .passed o lane => Sys2Proof.Machine.execPassed o lane s
  | .left o lane => Sys2Proof.Machine.execLeft o lane s
  | .exit o lane tag => Sys2Proof.Machine.execExit o lane tag s
  | .exitPassed o lane => Sys2Proof.Machine.execExitPassed o lane s
  | .exitUntagged seq lane => Sys2Proof.Machine.execExitUntagged seq lane s
  | .readLane seq lane => Sys2Proof.Machine.execReadLane seq lane s
  | .setFitted seq loop address fitted => Sys2Proof.Machine.execSetFitted seq loop address fitted s
  | .readLoop seq loop => Sys2Proof.Machine.execReadLoop seq loop s
  | .sweepStart n => Sys2Proof.Machine.execSweepStart n s
  | .poll n => Sys2Proof.Machine.execPoll n s
  | .loopReply n reply => Sys2Proof.Machine.execLoopReply n reply s
  | .replyWindowExpiry n => Sys2Proof.Machine.execReplyWindowExpiry n s
  | .loopLateFrameDiscarded n => Sys2Proof.Machine.execLoopLateFrameDiscarded n s
  | .loadProgramme seq lot entries => Sys2Proof.Machine.execLoadProgramme seq lot entries s
  | .editSegment seq lot pos entry => Sys2Proof.Machine.execEditSegment seq lot pos entry s
  | .insertSegment seq lot pos entry => Sys2Proof.Machine.execInsertSegment seq lot pos entry s
  | .deleteSegment seq lot pos => Sys2Proof.Machine.execDeleteSegment seq lot pos s
  | .readProgramme seq lot => Sys2Proof.Machine.execReadProgramme seq lot s
  | .startShow seq lot => Sys2Proof.Machine.execStartShow seq lot s
  | .halt seq lot => Sys2Proof.Machine.execHalt seq lot s
  | .resume seq lot pos => Sys2Proof.Machine.execResume seq lot pos s
  | .clearBooth seq lot => Sys2Proof.Machine.execClearBooth seq lot s
  | .setMotorLead seq lot seconds => Sys2Proof.Machine.execSetMotorLead seq lot seconds s
  | .readBooth seq lot => Sys2Proof.Machine.execReadBooth seq lot s
  | .threaded l p label => Sys2Proof.Machine.execThreaded l p label s
  | .unloaded l p => Sys2Proof.Machine.execUnloaded l p s
  | .motorUp l p => Sys2Proof.Machine.execMotorUp l p s
  | .cueMotor l p => Sys2Proof.Machine.execCueMotor l p s
  | .cueChange l p => Sys2Proof.Machine.execCueChange l p s
  | .runout l p => Sys2Proof.Machine.execRunout l p s
  | .filmBreak l p => Sys2Proof.Machine.execFilmBreak l p s
  | .preRollExpiry l => Sys2Proof.Machine.execPreRollExpiry l s
  | .intermissionExpiry l => Sys2Proof.Machine.execIntermissionExpiry l s
  | .boothLineDown l => Sys2Proof.Machine.execBoothLineDown l s
  | .ack l number => Sys2Proof.Machine.execAck l number s
  | .ackDeadlineExpiry l => Sys2Proof.Machine.execAckDeadlineExpiry l s
  | .hello l => Sys2Proof.Machine.execHello l s
  | .boothFrameDropped l => Sys2Proof.Machine.execBoothFrameDropped l s
  | .readLine seq lot clear => Sys2Proof.Machine.execReadLine seq lot clear s
  | .probe l word => Sys2Proof.Machine.execProbe l word s
  | .setTrim seq lot word => Sys2Proof.Machine.execSetTrim seq lot word s
  | .setCorrection seq lot word => Sys2Proof.Machine.execSetCorrection seq lot word s
  | .setCorrectionLimits seq lot lower upper => Sys2Proof.Machine.execSetCorrectionLimits seq lot lower upper s
  | .setFillLevel seq lot word => Sys2Proof.Machine.execSetFillLevel seq lot word s
  | .setDuckLevel seq lot word => Sys2Proof.Machine.execSetDuckLevel seq lot word s
  | .setTarget seq lot word => Sys2Proof.Machine.execSetTarget seq lot word s
  | .setAutoLevel seq lot enable => Sys2Proof.Machine.execSetAutoLevel seq lot enable s
  | .setUnderflowPolicy seq lot policy => Sys2Proof.Machine.execSetUnderflowPolicy seq lot policy s
  | .setMaster seq word => Sys2Proof.Machine.execSetMaster seq word s
  | .announce seq mask duration => Sys2Proof.Machine.execAnnounce seq mask duration s
  | .announceEnd seq mask => Sys2Proof.Machine.execAnnounceEnd seq mask s
  | .announcementExpiry l => Sys2Proof.Machine.execAnnouncementExpiry l s
  | .setAlertMask seq lot mask => Sys2Proof.Machine.execSetAlertMask seq lot mask s
  | .clearConditions seq lot => Sys2Proof.Machine.execClearConditions seq lot s
  | .readChannel seq lot => Sys2Proof.Machine.execReadChannel seq lot s
  | .place o tag level lines => Sys2Proof.Machine.execPlace o tag level lines s
  | .deliver o order stall => Sys2Proof.Machine.execDeliver o order stall s
  | .pay o tag amount => Sys2Proof.Machine.execPay o tag amount s
  | .cancelOrder seq order => Sys2Proof.Machine.execCancelOrder seq order s
  | .discard o order => Sys2Proof.Machine.execDiscard o order s
  | .soldOut o item => Sys2Proof.Machine.execSoldOut o item s
  | .backIn o item => Sys2Proof.Machine.execBackIn o item s
  | .setPrice seq item price => Sys2Proof.Machine.execSetPrice seq item price s
  | .readOrder seq order => Sys2Proof.Machine.execReadOrder seq order s
  | .ordersOfTag seq tag => Sys2Proof.Machine.execOrdersOfTag seq tag s
  | .readPrices seq first last => Sys2Proof.Machine.execReadPrices seq first last s
  | .readLotWindow seq lot => Sys2Proof.Machine.execReadLotWindow seq lot s
  | .keyLine o lot stall item qty => Sys2Proof.Machine.execKeyLine o lot stall item qty s
  | .keySubmit o lot stall intermission => Sys2Proof.Machine.execKeySubmit o lot stall intermission s
  | .keyCancel o lot stall => Sys2Proof.Machine.execKeyCancel o lot stall s
  | .draftExpiry order => Sys2Proof.Machine.execDraftExpiry order s
  | .take o station => Sys2Proof.Machine.execTake o station s
  | .ready o order => Sys2Proof.Machine.execReady o order s
  | .remake o order => Sys2Proof.Machine.execRemake o order s
  | .setLevel seq order level => Sys2Proof.Machine.execSetLevel seq order level s
  | .requeueStation seq station => Sys2Proof.Machine.execRequeueStation seq station s
  | .setBaseFloor seq station level => Sys2Proof.Machine.execSetBaseFloor seq station level s
  | .setAgingPeriod seq seconds => Sys2Proof.Machine.execSetAgingPeriod seq seconds s
  | .agingExpiry => Sys2Proof.Machine.execAgingExpiry s
  | .readQueue seq => Sys2Proof.Machine.execReadQueue seq s
  | .readStation seq station => Sys2Proof.Machine.execReadStation seq station s

end Sys2Proof.Machine
end

