-- ==== Sys2Proof/WellFormed.lean ====
section
/-! DEFINITION. What a command may carry: the widths in which a request frame carries its operands
(R191), the numbers that name the record of an expiry, and the parties that may give a command (R61,
R184). A well-formed operand may still be refused by the owner. -/

namespace Sys2Proof.WellFormed

/-- A one-byte field. -/
def byte (n : Nat) : Bool := decide (n < 256)

/-- A two-byte field. -/
def two (n : Nat) : Bool := decide (n < 65536)

/-- A three-byte field. -/
def three (n : Nat) : Bool := decide (n < 16777216)

/-- A field that may be left out. -/
def opt (f : Nat → Bool) (x : Option Nat) : Bool := (x.map f).getD true

/-- A level word's 16 bits hold exponent 0 to 7 and mantissa 0 to 8,191. -/
def word (w : LevelWord) : Bool := decide (w.e < 8) && decide (w.m < 8192)

/-- A level word that may be left out. -/
def optWord (x : Option LevelWord) : Bool := (x.map word).getD true

/-- A segment entry of eight bytes. -/
def entry (e : EntryParam) : Bool :=
  byte e.kind && opt two e.label && optWord e.level && opt two e.duration

/-- An order line of two bytes. -/
def line (x : LineParam) : Bool := byte x.item && byte x.qty

/-- The entries of a list with a one-byte count. -/
def entries (es : List EntryParam) : Bool := byte es.length && es.all entry

/-- The lines of a list with a one-byte count. -/
def lines (ls : List LineParam) : Bool := byte ls.length && ls.all line

/-- The office, or the stall's own post. -/
def fromPost : Origin → Bool
  | .office _ => true
  | .post => true
  | .terminal _ => false
  | .station _ _ => false
  | .handheld _ _ => false

/-- The office, or the lane's own terminal. -/
def fromTerminal : Origin → Bool
  | .office _ => true
  | .post => false
  | .terminal _ => true
  | .station _ _ => false
  | .handheld _ _ => false

/-- The office, or one of the four kitchen stations. -/
def fromStation : Origin → Bool
  | .office _ => true
  | .post => false
  | .terminal _ => false
  | .station k _ => decide (1 ≤ k) && decide (k ≤ 4)
  | .handheld _ _ => false

/-- The office, or a handheld, whose number is one byte. -/
def fromHandheld : Origin → Bool
  | .office _ => true
  | .post => false
  | .terminal _ => false
  | .station _ _ => false
  | .handheld h _ => byte h

/-- The office. -/
def isOffice : Origin → Bool
  | .office _ => true
  | .post => false
  | .terminal _ => false
  | .station _ _ => false
  | .handheld _ _ => false

/-- The parameters of a report (R49), in the widths of R191. -/
def report : Report → Bool
  | .sensorPresent => true
  | .sensorGone => true
  | .keyTag t => two t
  | .keyLine i q => byte i && byte q
  | .keySubmit _ => true
  | .keyCancel => true
  | .arrive => true
  | .admitCar l f n => byte l && byte f && byte n
  | .passed => true
  | .left => true
  | .exit t => two t
  | .exitPassed => true
  | .take => true
  | .ready n => two n
  | .remake n => two n
  | .soldOut i => byte i
  | .backIn i => byte i
  | .discard n => two n
  | .lookupStall l n => byte l && two n
  | .place t ls => two t && lines ls
  | .deliver n l st => two n && byte l && two st
  | .pay t m => two t && three m
  | .unknown k => byte k

/-- A reply frame. -/
def reply (r : LoopReply) : Bool :=
  byte r.address && (r.report.map fun x => byte x.handheld && report x.body).getD true

/-- A command is well formed. -/
def instr : Instr → Bool
  | .powerOnReset => true
  | .siteClockTick => true
  | .officeTransfer _ => true
  | .responseRead => true
  | .readNotices _ => true
  | .openSession _ => true
  | .closeSession _ => true
  | .forceClose _ => true
  | .setClock _ t => three t
  | .readClock _ => true
  | .readPass _ t => two t
  | .findTag _ t => two t
  | .readStall _ l n => byte l && two n
  | .readLot _ l => byte l
  | .retirePass _ t => two t
  | .setCapacity _ l v => byte l && two v
  | .setHeadLimit _ l v => byte l && two v
  | .setExitPolicy _ l p => byte l && byte p
  | .setLotLevels _ l p h r => byte l && opt byte p && opt byte h && opt byte r
  | .setTimers _ t g => opt two t && opt two g
  | .setOutOfService _ l n => byte l && two n
  | .clearOutOfService _ l n => byte l && two n
  | .sensorPresent o l n => fromPost o && byte l && two n
  | .sensorGone o l n => fromPost o && byte l && two n
  | .keyTag o l n t => fromPost o && byte l && two n && two t
  | .lookupStall o l n => fromHandheld o && byte l && two n
  | .transitExpiry t => decide (1 ≤ t) && decide (t ≤ 9999)
  | .graceExpiry _ n => decide (1 ≤ n) && decide (n ≤ 384)
  | .arrive o i => fromTerminal o && byte i
  | .admitCar o i l f n => fromTerminal o && byte i && byte l && byte f && byte n
  | .passed o i => fromTerminal o && byte i
  | .left o i => fromTerminal o && byte i
  | .exit o i t => fromTerminal o && byte i && two t
  | .exitPassed o i => fromTerminal o && byte i
  | .exitUntagged _ i => byte i
  | .readLane _ i => byte i
  | .setFitted _ n a _ => byte n && byte a
  | .readLoop _ n => byte n
  | .sweepStart _ => true
  | .poll _ => true
  | .loopReply _ r => reply r
  | .replyWindowExpiry _ => true
  | .loopLateFrameDiscarded _ => true
  | .loadProgramme _ l es => byte l && entries es
  | .editSegment _ l p e => byte l && byte p && entry e
  | .insertSegment _ l p e => byte l && byte p && entry e
  | .deleteSegment _ l p => byte l && byte p
  | .readProgramme _ l => byte l
  | .startShow _ l => byte l
  | .halt _ l => byte l
  | .resume _ l p => byte l && byte p
  | .clearBooth _ l => byte l
  | .setMotorLead _ l v => byte l && two v
  | .readBooth _ l => byte l
  | .threaded _ _ n => two n
  | .unloaded _ _ => true
  | .motorUp _ _ => true
  | .cueMotor _ _ => true
  | .cueChange _ _ => true
  | .runout _ _ => true
  | .filmBreak _ _ => true
  | .preRollExpiry _ => true
  | .intermissionExpiry _ => true
  | .boothLineDown _ => true
  | .ack _ n => byte n
  | .ackDeadlineExpiry _ => true
  | .hello _ => true
  | .boothFrameDropped _ => true
  | .readLine _ l _ => byte l
  | .probe _ w => word w
  | .setTrim _ l w => byte l && word w
  | .setCorrection _ l w => byte l && word w
  | .setCorrectionLimits _ l w x => byte l && word w && word x
  | .setFillLevel _ l w => byte l && word w
  | .setDuckLevel _ l w => byte l && word w
  | .setTarget _ l w => byte l && word w
  | .setAutoLevel _ l _ => byte l
  | .setUnderflowPolicy _ l p => byte l && byte p
  | .setMaster _ w => word w
  | .announce _ m d => byte m && two d
  | .announceEnd _ m => byte m
  | .announcementExpiry _ => true
  | .setAlertMask _ l m => byte l && byte m
  | .clearConditions _ l => byte l
  | .readChannel _ l => byte l
  | .place o t v ls =>
    fromHandheld o && (isOffice o || t.isSome) && opt two t && byte v && lines ls
  | .deliver o n st =>
    fromHandheld o && (isOffice o || st.isSome) && two n &&
      (st.map fun x => byte x.1 && two x.2).getD true
  | .pay o t m => fromHandheld o && two t && three m
  | .cancelOrder _ n => two n
  | .discard o n => fromStation o && two n
  | .soldOut o i => fromStation o && byte i
  | .backIn o i => fromStation o && byte i
  | .setPrice _ i v => byte i && two v
  | .readOrder _ n => two n
  | .ordersOfTag _ t => two t
  | .readPrices _ a b => byte a && byte b
  | .readLotWindow _ l => byte l
  | .keyLine o l n i q => fromPost o && byte l && two n && byte i && byte q
  | .keySubmit o l n _ => fromPost o && byte l && two n
  | .keyCancel o l n => fromPost o && byte l && two n
  | .draftExpiry n => decide (1 ≤ n) && decide (n ≤ 999)
  | .take o k => fromStation o && byte k
  | .ready o n => fromStation o && two n
  | .remake o n => fromStation o && two n
  | .setLevel _ n v => two n && byte v
  | .requeueStation _ k => byte k
  | .setBaseFloor _ k v => byte k && byte v
  | .setAgingPeriod _ v => two v
  | .agingExpiry => true
  | .readQueue _ => true
  | .readStation _ k => byte k

end Sys2Proof.WellFormed
end

