-- ==== Sys2Proof/Safety.lean ====
section
/-! DEFINITION. What holds of the part's records in every step: the laws the manual states of lots,
numbers, lines, level words and tables, as conditions on one state. -/

namespace Sys2Proof.Safety

open Sys2Proof.Machine

/-- R8: a lot's inside never exceeds its capacity, nor its heads its head limit. -/
abbrev LotLimits (s : State) : Prop :=
  ∀ l : Lot, (s.lotAt l).inside ≤ (s.lotAt l).capacity ∧ (s.lotAt l).heads ≤ (s.lotAt l).headLimit

/-- R185, R9: the clamped settings of a lot lie in their ranges. -/
abbrev lotSettings (r : LotRec) : Prop :=
  r.capacity ≤ 384 ∧ r.headLimit ≤ 3072 ∧ 1 ≤ r.postLevel ∧ r.postLevel ≤ 6 ∧
    1 ≤ r.handLevel ∧ r.handLevel ≤ 6 ∧ 1 ≤ r.rushLevel ∧ r.rushLevel ≤ 7

/-- R185, R190: every clamped setting and the site clock lie in their ranges. -/
abbrev SettingsInRange (s : State) : Prop :=
  (∀ l : Lot, lotSettings (s.lotAt l) ∧ 5 ≤ (s.boothAt l).motorLead ∧ (s.boothAt l).motorLead ≤ 30) ∧
    (120 ≤ s.transitLimit ∧ s.transitLimit ≤ 3600) ∧ (20 ≤ s.vacateGrace ∧ s.vacateGrace ≤ 300) ∧
    (60 ≤ s.agingPeriod ∧ s.agingPeriod ≤ 900) ∧ (∀ k : Fin 4, (s.stationAt k).baseFloor ≤ 6) ∧
    (∀ i : Nat, (s.priceAt i).price ≤ 9999) ∧ s.olp.clock ≤ 86399

/-- R103, R107, R110, R111: a line context's waiting queue, numbers and counter lie in their ranges; a
DOWN line holds no command, staged drive or last acknowledged drive; and nothing waits on a line with no
command in flight. -/
abbrev lineShape (c : LineCtx) : Prop :=
  c.queue.length ≤ 7 ∧ c.nextNumber ≤ 255 ∧ c.dropped ≤ 65535 ∧
    (∀ f ∈ c.inFlight, f.number ≤ 255 ∧ f.retry ≤ 1 ∧ f.deadline ≤ 250) ∧
    (c.up = false → c.inFlight = none ∧ c.queue = [] ∧ c.staged = none ∧ c.lastDrive = none) ∧
    (c.inFlight = none → c.queue = [] ∧ c.staged = none)

/-- Every line is in shape. -/
abbrev LinesInShape (s : State) : Prop := ∀ l : Lot, lineShape (s.lineAt l)

/-- R66: the level word of an entry, if it has one, is true zero or normalised. -/
abbrev entryLawful (e : Segment) : Prop := ∀ w ∈ entryLevel e, lawfulWord w = true

/-- R128: every level word of a channel context is true zero or normalised, C lies within C_min to C_max,
C_min is not GREATER than C_max, and the drive code lies within 0 to 4,095. -/
abbrev channelLawful (c : ChannelCtx) : Prop :=
  (lawfulWord c.segLevel = true ∧ lawfulWord c.trim = true ∧ lawfulWord c.corr = true ∧
    lawfulWord c.cMin = true ∧ lawfulWord c.cMax = true ∧ lawfulWord c.target = true ∧
    lawfulWord c.fill = true ∧ lawfulWord c.duck = true ∧ lawfulWord c.gain = true) ∧
    compareLevels c.cMin c.cMax ≠ .gt ∧ compareLevels c.corr c.cMin ≠ .lt ∧
    compareLevels c.corr c.cMax ≠ .gt ∧ c.drive ≤ 4095

/-- R117, R128, R66: every level word the part holds is lawful. -/
abbrev LevelsLawful (s : State) : Prop :=
  lawfulWord s.master = true ∧
    ∀ l : Lot, channelLawful (s.channelAt l) ∧ (∀ e ∈ s.programmeAt l, entryLawful e) ∧
      ∀ e ∈ (s.boothAt l).latched, entryLawful e

/-- The tables of the part stand in their one canonical form: keys strictly rising, and no record listed
that equals the power-on value of a table whose every record exists. -/
abbrev RecordsInForm (s : State) : Prop :=
  Table.sorted s.passes = true ∧ Table.sorted s.orders = true ∧
    Table.wf PriceRec.fresh s.prices = true ∧
    (∀ l : Lot, Table.wf StallRec.fresh (bankGet s.stalls l) = true) ∧
    ∀ n : LoopId, Table.wf UnitRec.fresh (s.loopAt n).units = true

/-- R67: every programme the store holds is empty or well formed. -/
abbrev ProgrammesWellFormed (s : State) : Prop :=
  ∀ l : Lot, s.programmeAt l = [] ∨ wellFormedProgramme (s.programmeAt l) = true

/-- R79: at most one projector of a booth is ON_SCREEN, and then only in RUNNING or CHANGEOVER_PENDING
with the gap flag clear (R87, R93). -/
abbrev oneOnScreen (b : BoothCtx) : Prop :=
  ¬(b.projA.state = .onScreen ∧ b.projB.state = .onScreen) ∧
    (b.projA.state = .onScreen ∨ b.projB.state = .onScreen →
      (b.state = .running ∨ b.state = .changeoverPending) ∧ b.gap = false) ∧
    (b.gap = true → b.state = .running ∨ b.state = .changeoverPending)

/-- R79: the law of the screen holds of every booth. -/
abbrev OneOnScreen (s : State) : Prop := ∀ l : Lot, oneOnScreen (s.boothAt l)

/-- R6: a stall is bound exactly in OCCUPIED and VACATED, to a live PARKED pass of its lot that names it, and
a pass names a stall exactly when it is PARKED, one bound to it. -/
abbrev BindingAgrees (s : State) : Prop :=
  (∀ l n, stallBound (s.stallAt l n) = (s.stallAt l n).tag.isSome) ∧
    (∀ l n tag, (s.stallAt l n).tag = some tag →
      ∃ p, s.passAt tag = some p ∧ p.state = .parked ∧ p.lot = l ∧ p.stall = some n) ∧
    ∀ tag p, s.passAt tag = some p →
      (p.state = .parked → ∃ n, p.stall = some n ∧ (s.stallAt p.lot n).tag = some tag) ∧
      (p.state ≠ .parked → p.stall = none)

/-- R7: a lot's inside counts its live passes, its heads their parties and its parked its bound stalls. -/
abbrev CountsAgree (s : State) : Prop :=
  ∀ l : Lot,
    (s.lotAt l).inside = (s.passes.filter fun kv => decide (kv.2.lot = l)).length ∧
    (s.lotAt l).heads =
      ((s.passes.filter fun kv => decide (kv.2.lot = l)).map fun kv => kv.2.party).sum ∧
    (s.lotAt l).parked = ((bankGet s.stalls l).filter fun kv => stallBound kv.2).length

/-- R1, R6, R7, R8: the passes, the stalls and the lot counters tell one story. -/
abbrev OccupancyAgrees (s : State) : Prop :=
  RecordsInForm s ∧ LotLimits s ∧ (∀ l : Lot, (s.lotAt l).capacity ≤ 384) ∧
    (1 ≤ s.olp.tagSeq ∧ s.olp.tagSeq ≤ 9999) ∧ (∀ kv ∈ s.passes, 1 ≤ kv.1 ∧ kv.1 ≤ 9999) ∧
    BindingAgrees s ∧ CountsAgree s

/-- R167: no order of the queue stands behind one it comes before. -/
abbrev queueOrdered (s : State) : Prop :=
  s.queue.Pairwise fun a b => queueBefore s.orders b a = false

/-- R167, R168, R169, R5: the kitchen queue is the PLACED orders and the held list the HELD ones, each once
and in its order; a stack is the orders of its station, at most three, their levels rising to the top; only
an IN_PREP order, and an UNCLAIMED one not yet made, has a station; and a stall's draft order is a DRAFT of
the tag bound to it. -/
abbrev KitchenAgrees (s : State) : Prop :=
  (∀ n, n ∈ s.queue ↔ ∃ o, s.orderAt n = some o ∧ o.state = .placed) ∧
    (∀ n, n ∈ s.held ↔ ∃ o, s.orderAt n = some o ∧ o.state = .held) ∧
    s.queue.Nodup ∧ s.held.Nodup ∧ queueOrdered s ∧
    (s.held.Pairwise fun a b => seqBefore s.orders b a = false) ∧
    (∀ (k : Fin 4) (n : Nat), n ∈ (s.stationAt k).stack ↔
      ∃ o, s.orderAt n = some o ∧ o.station = some (k.val + 1)) ∧
    (∀ k : Fin 4, (s.stationAt k).stack.length ≤ 3 ∧
      (s.stationAt k).stack.Pairwise fun a b => levelIn s.orders b < levelIn s.orders a) ∧
    (∀ n o, s.orderAt n = some o →
      (o.station ≠ none → o.state = .inPrep ∨ o.state = .unclaimed) ∧
      (o.state = .inPrep → o.station ≠ none)) ∧
    ∀ l n d, (s.stallAt l n).draft = some d → ∃ o tag, s.orderAt d = some o ∧ o.state = .draft ∧
      o.tag = some tag ∧ (s.stallAt l n).tag = some tag

/-! ## The time base -/

/-- The expiry rows whose count stands at zero, in the order a second takes them (log entry 4). -/
abbrev dueRows (s : State) : List Instr :=
  (s.passes.filter fun kv => decide (kv.2.transit = some 0)).map (fun kv => .transitExpiry kv.1) ++
    allLots.flatMap (fun l =>
      ((bankGet s.stalls l).filter fun kv => decide (kv.2.grace = some 0)).map
        fun kv => .graceExpiry l kv.1) ++
    (s.orders.filter fun kv => decide (kv.2.draftDeadline = some 0)).map
      (fun kv => .draftExpiry kv.1) ++
    (allLots.filter fun l => decide ((s.boothAt l).state = .intermission ∧
      (s.boothAt l).preRoll = some 0)).map .preRollExpiry ++
    (allLots.filter fun l => decide ((s.boothAt l).state = .intermission ∧
      (s.boothAt l).intermission = some 0 ∧ (s.boothAt l).preRoll = none)).map .intermissionExpiry ++
    (allLots.filter fun l => decide ((s.channelAt l).announcing = true ∧
      (s.channelAt l).announceDeadline = some 0)).map .announcementExpiry ++
    (if s.agingCount = 0 then [.agingExpiry] else [])

/-- The state that rows taken one after another leave, if each answers a next state. -/
def runRows : List Instr → State → Option State
  | [], s => some s
  | c :: rest, s =>
    match exec c s with
    | .next t => runRows rest t
    | .fault _ => none
    | .refused _ => none

/-! ## The office link -/

/-- R184, R191: the bytes that the parameters of a request code take, with the counts they carry; none for a
code that is not of the catalogue. -/
def paramSize (code : Nat) (ps : List Byte) : Option Nat :=
  if code ∈ [1, 2, 3, 4, 6, 103] then some 0
  else if code ∈ [19, 32, 34, 35, 37, 38, 39, 45, 52, 56, 57, 59, 61, 74, 76, 77, 85, 86, 91, 96, 100,
    104] then some 1
  else if code ∈ [16, 17, 20, 23, 51, 58, 62, 70, 71, 72, 75, 83, 84, 88, 89, 90, 97, 98, 101, 102] then
    some 2
  else if code ∈ [5, 18, 21, 22, 26, 27, 28, 29, 31, 36, 44, 60, 64, 65, 67, 68, 69, 73, 87, 94, 99] then
    some 3
  else if code ∈ [33, 93] then some 4
  else if code ∈ [24, 25, 30, 66, 82, 92] then some 5
  else if code = 81 then some 6
  else if code ∈ [49, 50] then some 10
  else if code = 48 then some (2 + 8 * (ps.getD 1 0).toNat)
  else if code = 80 then some (5 + 2 * (ps.getD 4 0).toNat)
  else none

/-! ## What a field unit's report asks -/

/-- R51, R184: the command that a stall post's report of a kind of its class is, for the post's stall. -/
def postCommand (l : Lot) (k : Nat) : Report → Option Instr
  | .sensorPresent => some (.sensorPresent .post (lotNumber l) k)
  | .sensorGone => some (.sensorGone .post (lotNumber l) k)
  | .keyTag tag => some (.keyTag .post (lotNumber l) k tag)
  | .keyLine item qty => some (.keyLine .post (lotNumber l) k item qty)
  | .keySubmit b => some (.keySubmit .post (lotNumber l) k b)
  | .keyCancel => some (.keyCancel .post (lotNumber l) k)
  | _ => none

/-- R51: the command that a request of a lane terminal's class is, at unit `a`. -/
def terminalCommand (a : Nat) (g : Bool) : Report → Option Instr
  | .arrive => some (.arrive (.terminal g) a)
  | .admitCar lot fee party => some (.admitCar (.terminal g) a lot fee party)
  | .passed => some (.passed (.terminal g) a)
  | .left => some (.left (.terminal g) a)
  | .exit tag => some (.exit (.terminal g) a tag)
  | .exitPassed => some (.exitPassed (.terminal g) a)
  | _ => none

/-- R51: the command that a request of a kitchen station's class is, at station `k`. -/
def stationCommand (k : Nat) (g : Bool) : Report → Option Instr
  | .take => some (.take (.station k g) k)
  | .ready n => some (.ready (.station k g) n)
  | .remake n => some (.remake (.station k g) n)
  | .soldOut item => some (.soldOut (.station k g) item)
  | .backIn item => some (.backIn (.station k g) item)
  | .discard n => some (.discard (.station k g) n)
  | _ => none

/-- R51, R62: the command that a request of a handheld's class is. -/
def handheldCommand (h : Nat) (g : Bool) : Report → Option Instr
  | .lookupStall lot n => some (.lookupStall (.handheld h g) lot n)
  | .place tag lines => some (.place (.handheld h g) (some tag) 0 lines)
  | .deliver n lot k => some (.deliver (.handheld h g) n (some (lot, k)))
  | .pay tag amount => some (.pay (.handheld h g) tag amount)
  | _ => none

/-- R51: the command that a service unit's request is; none outside the unit's class (R61). -/
def serviceCommand (a : Nat) (rep : ReplyReport) : Option Instr :=
  if a ≤ 6 then terminalCommand a rep.toggle rep.body
  else if a ≤ 10 then stationCommand (a - 6) rep.toggle rep.body
  else handheldCommand rep.handheld rep.toggle rep.body

/-! ## The retirement of a pass -/

/-- R6: the stall that a pass is bound to, that of a PARKED one. -/
abbrev carStall (p : PassRec) : Option Nat := if p.state = .parked then p.stall else none

/-- R5: the draft order field of the stall of pass `p`, with this tag, names a draft of that pass. -/
abbrev OwnDraft (tag : Nat) (p : PassRec) (s : State) : Prop :=
  ∀ n d, carStall p = some n → (s.stallAt p.lot n).draft = some d →
    ∃ o, s.orderAt d = some o ∧ o.tag = some tag ∧ o.state = .draft

/-- R163: order `n` is one of the pass's that its retirement frees. -/
abbrev freedWith (tag : Nat) (s : State) (n : Nat) : Prop :=
  ∃ o, s.orderAt n = some o ∧ o.tag = some tag ∧
    (o.state = .draft ∨ o.state = .held ∨ o.state = .placed)

/-- R22, R163: pass `p` with this tag was retired. The pass and its stall are free, its lot's counters
lowered, its tab written off; its DRAFT, HELD and PLACED orders are freed, and its IN_PREP and READY ones
left UNCLAIMED with the notice; no other pass, stall, lot, order or notice changed. -/
abbrev Retired (tag : Nat) (p : PassRec) (s t : State) : Prop :=
  t.passAt tag = none ∧ (∀ u, u ≠ tag → t.passAt u = s.passAt u) ∧
    (∀ n, carStall p = some n → t.stallAt p.lot n = { s.stallAt p.lot n with
      state := .free, tag := none, grace := none, draft := none, lampDesired := .off }) ∧
    (∀ k m, ¬(k = p.lot ∧ carStall p = some m) → t.stallAt k m = s.stallAt k m) ∧
    t.lotAt p.lot = { s.lotAt p.lot with
      inside := (s.lotAt p.lot).inside - 1, heads := (s.lotAt p.lot).heads - p.party
      parked := if carStall p = none then (s.lotAt p.lot).parked else (s.lotAt p.lot).parked - 1
      unsettled := min ((s.lotAt p.lot).unsettled + p.tab) 4294967295 } ∧
    (∀ k, k ≠ p.lot → t.lotAt k = s.lotAt k) ∧
    (∀ n, t.orderAt n = (s.orderAt n).bind fun o =>
      if o.tag = some tag then
        if o.state = .draft ∨ o.state = .held ∨ o.state = .placed then none
        else some { o with state := .unclaimed }
      else some o) ∧
    (∀ n, n ∈ t.queue ↔ n ∈ s.queue ∧ ¬freedWith tag s n) ∧
    (∀ n, n ∈ t.held ↔ n ∈ s.held ∧ ¬freedWith tag s n) ∧
    ((∃ n o, s.orderAt n = some o ∧ o.tag = some tag ∧ (o.state = .inPrep ∨ o.state = .ready)) →
      (t.noticeOf .ordersUnclaimed).pending = true) ∧
    ((∀ n o, s.orderAt n = some o → o.tag = some tag → o.state ≠ .inPrep ∧ o.state ≠ .ready) →
      t.olp.notices = s.olp.notices) ∧
    (∀ k, k ≠ .ordersUnclaimed → t.noticeOf k = s.noticeOf k)

/-- R188: in CLOSING, the retirement of the last pass, when it leaves the order table empty, closes the
session with its notice; while a pass or an order is left the session stays CLOSING. -/
abbrev ClosesWithLast (tag : Nat) (p : PassRec) (s t : State) : Prop :=
  ((∀ kv ∈ s.passes, kv.1 = tag) → (∀ kv ∈ s.orders, kv.2.tag = some tag ∧
      (kv.2.state = .draft ∨ kv.2.state = .held ∨ kv.2.state = .placed)) →
    t.olp.session = .closed ∧ t.passes = [] ∧ t.orders = [] ∧
    (t.noticeOf .sessionClosed).pending = true ∧
    (t.noticeOf .sessionClosed).mask.getLsbD 0 = true ∧
    ∀ l : Lot, (t.lotAt l).window = .closed) ∧
  ((∃ kv ∈ s.passes, kv.1 ≠ tag) ∨ (∃ n o, s.orderAt n = some o ∧ (o.tag ≠ some tag ∨
      o.state = .inPrep ∨ o.state = .ready ∨ o.state = .unclaimed)) → OwnDraft tag p s →
    t.olp.session = .closing ∧ t.noticeOf .sessionClosed = s.noticeOf .sessionClosed)

/-! ## What a step of one lot's show can reach -/

/-- `t` is `s` but for the show of lot `l`: its programme, booth, line and channel, its window with the
general-call slots, the response slot and notices, and, at a RUSH that begins or an ENDED booth, the orders
released. -/
abbrev OnlyShow (l : Lot) (s t : State) : Prop :=
  (∀ k, k ≠ l → t.lotAt k = s.lotAt k ∧ t.programmeAt k = s.programmeAt k ∧
    t.boothAt k = s.boothAt k ∧ t.lineAt k = s.lineAt k ∧ t.channelAt k = s.channelAt k) ∧
    t.lotAt l = { s.lotAt l with window := (t.lotAt l).window } ∧
    (∀ n a, t.unitAt n a = s.unitAt n a) ∧
    ((t.lotAt l).window = (s.lotAt l).window ∨ (t.lotAt l).window ≠ .rush →
      (t.boothAt l).state ≠ .ended → t.orders = s.orders ∧ t.queue = s.queue ∧ t.held = s.held) ∧
    t.olp = { s.olp with slot := t.olp.slot, notices := t.olp.notices } ∧
    t = { s with
      olp := t.olp, lots := t.lots, loops := t.loops, programmes := t.programmes, booths := t.booths,
      lines := t.lines, channels := t.channels, orders := t.orders, queue := t.queue, held := t.held }

/-- R103, R107: an UP line, idle or with a command in flight, with room for `k` commands, so that nothing
overflows; nothing waits on an idle line. -/
abbrev LineRoom (k : Nat) (c : LineCtx) : Prop :=
  c.up = true ∧ (c.inFlight = none → c.queue = []) ∧ c.queue.length + k ≤ 7 ∧ c.downReport = none

/-- R103, R107: a line that loses no command of a step that issues `k`: an UP one with room for them, or a
DOWN one, which discards them. -/
abbrev LineTakes (k : Nat) (c : LineCtx) : Prop :=
  LineRoom k c ∨ (c.up = false ∧ c.downReport = none)

/-- R105, R110: a line that sends a command for the first time. -/
abbrev sentLine (cmd : BoothCmd) (c : LineCtx) : LineCtx :=
  { c with
    inFlight := some { cmd := cmd, number := c.nextNumber, retry := 0, deadline := 250 }
    nextNumber := (c.nextNumber + 1) % 256, sent := some (cmd, c.nextNumber) }

/-- R107: a line with room, after a command is issued to it: a DOWN line discards it, an idle one sends it
at once, and on another it waits. -/
abbrev issuedLine (c : LineCtx) (cmd : BoothCmd) : LineCtx :=
  if c.up = false then c
  else if c.inFlight = none ∧ c.queue = [] then sentLine cmd c
  else { c with queue := c.queue ++ [cmd] }

/-- R108, R132: a line after a drive code is offered to it: one equal to its latest drive is not handed, a
DOWN line discards it, an idle one sends it at once, and on another it is staged. -/
abbrev driveLine (code : Nat) (c : LineCtx) : LineCtx :=
  if c.up = false ∨ latestDrive c = some code then c
  else if c.inFlight = none ∧ c.queue = [] then sentLine (.drive code) { c with staged := none }
  else { c with staged := some code }

/-- R107, R108, R132: the commands were issued to the line of lot `l` in order, and then the channel's drive
code was offered to it; nothing else of the line changed. -/
abbrev Issued (l : Lot) (cmds : List BoothCmd) (s t : State) : Prop :=
  t.lineAt l = driveLine (t.channelAt l).drive (cmds.foldl issuedLine (s.lineAt l))

/-- R59: the general-call code of a window. -/
abbrev callCode : Window → Nat
  | .rush => 31
  | .open => 30
  | .closed => 39

/-- R59, R150: the two loops of a lot whose window changed have its code in their general-call slots; no
other loop of the part changed. -/
abbrev CallsWindow (l : Lot) (s t : State) : Prop :=
  ∀ n : LoopId, t.loopAt n =
    if (n = firstLoop l ∨ n = secondLoop l) ∧ (t.lotAt l).window ≠ (s.lotAt l).window then
      { s.loopAt n with callSlot := some (callCode (t.lotAt l).window) }
    else s.loopAt n

/-- R150, R178: the held orders of lot `l` were released at a level: they are PLACED, off the held list and
in the queue, with the site clock's time as their last raise; no other order changed. -/
abbrev HeldReleased (l : Lot) (level : Nat) (s t : State) : Prop :=
  (∀ n, t.orderAt n = (s.orderAt n).map fun o =>
    if n ∈ s.held ∧ heldOfLot s l n = true then
      { o with state := .placed, level := some level, lastRaise := some s.olp.clock }
    else o) ∧
    (∀ n, n ∈ t.held ↔ n ∈ s.held ∧ heldOfLot s l n = false) ∧
    (∀ n, n ∈ t.queue ↔ n ∈ s.queue ∨ (n ∈ s.held ∧ heldOfLot s l n = true)) ∧
    (s.held.Nodup → (∀ n ∈ s.held, n ∉ s.queue) → queueOrdered s → queueOrdered t)

/-- R149, R150: the Order Table was told of the booth of lot `l`: the lot's window is the one derived, a
change of it is called on the lot's loops, and a RUSH that begins releases the lot's held orders. -/
abbrev WindowTold (l : Lot) (s t : State) : Prop :=
  (t.lotAt l).window = windowDerived t l ∧ CallsWindow l s t ∧
    ((t.lotAt l).window = .rush → (s.lotAt l).window ≠ .rush →
      HeldReleased l (s.lotAt l).rushLevel s t)

/-- A projector whose motor stands and that shows nothing (R79). -/
abbrev stands (x : ProjCtx) : Prop := x.state = .empty ∨ x.state = .threaded ∨ x.state = .spent

/-- R95, R97: the booth after a halt with a reason, its two projectors apart. -/
abbrev haltedAs (reason : HaltReason) (b : BoothCtx) (c : BoothCtx) : BoothCtx :=
  { b with
    state := .halted, haltReason := some reason, latched := none, late := false, gap := false,
    intermission := none, preRoll := none, projA := c.projA, projB := c.projB }

/-- R95 steps 1 to 3: the commands of a halt: DOWSER close and MOTOR off for what is on screen, MOTOR off
for what is TAILING, and then for what is STARTING or AT_SPEED. -/
abbrev haltStops (b : BoothCtx) : List BoothCmd :=
  ([Projector.a, .b].flatMap fun p =>
    if (projOf b p).state = .onScreen then [.dowser p false, .motor p false] else []) ++
  ([Projector.a, .b].flatMap fun p =>
    if (projOf b p).state = .tailing then [.motor p false] else []) ++
  [Projector.a, .b].flatMap fun p =>
    if (projOf b p).state = .starting ∨ (projOf b p).state = .atSpeed then [.motor p false] else []

/-- R95 steps 1 to 3: where a halt leaves a projector. -/
abbrev haltsAt : ProjState → ProjState
  | .onScreen => .spent
  | .tailing => .spent
  | .starting => .threaded
  | .atSpeed => .threaded
  | .empty => .empty
  | .threaded => .threaded
  | .spent => .spent

/-- R100: the commands of Clear Booth: DOWSER close for what is on screen, and then MOTOR off for every
motor that runs. -/
abbrev clearStops (b : BoothCtx) : List BoothCmd :=
  ([Projector.a, .b].flatMap fun p =>
    if (projOf b p).state = .onScreen then [.dowser p false] else []) ++
  [Projector.a, .b].flatMap fun p => if stands (projOf b p) then [] else [.motor p false]

/-- R68: the list `es` was loaded: it is stored, the booth is READY without a current position, and a
TAILING or SPENT projector has lost its position. -/
abbrev Loaded (l : Lot) (es : List Segment) (s t : State) : Prop :=
  t.programmeAt l = es ∧
    t.boothAt l = { s.boothAt l with
      state := .ready, current := none, start := none, latched := none
      projA := (t.boothAt l).projA, projB := (t.boothAt l).projB } ∧
    (∀ p, projOf (t.boothAt l) p = if (projOf (s.boothAt l) p).state = .tailing ∨
      (projOf (s.boothAt l) p).state = .spent then { projOf (s.boothAt l) p with pos := none }
      else projOf (s.boothAt l) p) ∧
    WindowTold l s t ∧ OnlyShow l s t

/-- R134: the SOURCE command of a hand-off, issued when the source changes. -/
abbrev sourceSwitch (l : Lot) (src : Source) (s : State) : List BoothCmd :=
  if (s.channelAt l).source = src then [] else [.source src]

/-- R129 to R132: the channel of lot `l` holds the gain and drive code of its chain, and the port's latest
drive is that code. -/
abbrev Evaluated (l : Lot) (s : State) : Prop :=
  (s.channelAt l).gain = (gainChain (s.channelAt l).policy (segmentFactor (s.channelAt l))
    (s.channelAt l).trim (s.channelAt l).corr (duckFactor (s.channelAt l)) s.master).1 ∧
    (s.channelAt l).drive = (fix (s.channelAt l).gain).1 ∧
    ((s.lineAt l).up = true → latestDrive (s.lineAt l) = some (s.channelAt l).drive)

/-- R134: the channel of lot `l` took a hand-off: its source and segment level are these, it is evaluated,
and its settings are as they were. -/
abbrev HandedOff (l : Lot) (src : Source) (level : LevelWord) (s t : State) : Prop :=
  t.channelAt l = { s.channelAt l with
    source := src, segLevel := level, gain := (t.channelAt l).gain, drive := (t.channelAt l).drive
    conds := (t.channelAt l).conds, lastCause := (t.channelAt l).lastCause } ∧ Evaluated l t

/-- The notices, but for LEVEL_ALERT which an evaluation may raise, are those of `u`. -/
abbrev NoticesOf (u t : State) : Prop := ∀ k, k ≠ .levelAlert → t.noticeOf k = u.noticeOf k

/-- R71: the verdict on an edit at position `p` that would leave the list `after`, none when the entry it
carries fails R66. -/
abbrev editVerdict (es : List Segment) (b : BoothCtx) (p : Nat) (after : Option (List Segment)) :
    Status :=
  if es = [] then .badState
  else if p = 0 ∨ es.length < p then .outOfRange
  else if after = none then .outOfRange
  else if b.current = some p then .liveSegment
  else if b.latched ≠ none ∧ b.current.map (fun c => c + 1) = some p then .latched
  else if heldPos b.projA = some p ∨ heldPos b.projB = some p then .badState
  else if after.map wellFormedProgramme = some true then .ok
  else .outOfRange

/-- R131, R133: the conditions the four multiplies and the fix of an evaluation of this channel meet. -/
abbrev metBy (c : ChannelCtx) (master : LevelWord) : Conds :=
  (gainChain c.policy (segmentFactor c) c.trim c.corr (duckFactor c) master).2.union
    (Conds.ofReport (fix (gainChain c.policy (segmentFactor c) c.trim c.corr (duckFactor c) master).1).2)

/-- R131, R133: between `s` and `t` the channel of lot `l` became `c` and was evaluated with a cause, the
conditions `prior` having prompted it: results and conditions are stored, the last cause follows what is
newly added, and LEVEL_ALERT is raised when a newly added condition is enabled. -/
abbrev EvaluatedAs (l : Lot) (c : ChannelCtx) (cause : Cause) (prior : Conds) (s t : State) : Prop :=
  Evaluated l t ∧
    t.channelAt l = { c with
      gain := (t.channelAt l).gain, drive := (t.channelAt l).drive
      conds := c.conds.union (prior.union (metBy c t.master))
      lastCause := if ((prior.union (metBy c t.master)).diff c.conds).any then some cause
        else c.lastCause } ∧
    ((((prior.union (metBy c t.master)).diff c.conds).inter c.mask).any = true →
      (t.noticeOf .levelAlert).pending = true) ∧
    (t.noticeOf .levelAlert).mask.getLsbD (l.val + 1) =
      ((s.noticeOf .levelAlert).mask.getLsbD (l.val + 1) ||
        (((prior.union (metBy c t.master)).diff c.conds).inter c.mask).any)

/-- `t` is `s` but for the channel and line of lot `l`, and the response slot and notices. -/
abbrev OnlySound (l : Lot) (s t : State) : Prop :=
  (∀ k, k ≠ l → t.lineAt k = s.lineAt k ∧ t.channelAt k = s.channelAt k) ∧
    t.olp = { s.olp with slot := t.olp.slot, notices := t.olp.notices } ∧ NoticesOf s t ∧
    t = { s with olp := t.olp, lines := t.lines, channels := t.channels }

/-- The number 4^e × M that a level word stands for, in units of 2 to the power −25 (R114). -/
abbrev levelValue (w : LevelWord) : Nat := w.m * 4 ^ w.e

/-! ## Orders -/

/-- R157: order `n` was placed as `o`, whose state and level the placing rule gives: it took the next
placement sequence and the site clock's time, and entered the held list or the kitchen queue. -/
abbrev PlacedAs (n : Nat) (o : OrderRec) (s t : State) : Prop :=
  t.orderAt n = some { o with
    seq := some s.olp.placeSeq, placedTime := some s.olp.clock, lastRaise := some s.olp.clock
    draftDeadline := none } ∧
    (∀ m, m ≠ n → t.orderAt m = s.orderAt m) ∧
    (o.state = .held → t.held = insertBy (seqBefore t.orders) n s.held ∧ t.queue = s.queue) ∧
    (o.state = .placed → t.queue = insertBy (queueBefore t.orders) n s.queue ∧ t.held = s.held) ∧
    t.olp.placeSeq = if 4294967295 ≤ s.olp.placeSeq then 1 else s.olp.placeSeq + 1

/-- R158: the stall named has its lamp recomputed from the orders of `t`; no other stall changed. -/
abbrev Relamped (at' : Option (Lot × Nat)) (s t : State) : Prop :=
  ∀ l n, t.stallAt l n =
    if at' = some (l, n) then
      { s.stallAt l n with lampDesired := lampWanted t.orders (s.stallAt l n) }
    else s.stallAt l n

/-- R60: the answer stands in the pending response slot of a service unit; nothing else changed. -/
abbrev slotted (address : Nat) (toggle : Bool) (handheld : Option Nat) (a : Answer) (s : State) :
    State :=
  s.setUnit serviceLoop address { s.unitAt serviceLoop address with
    pending := some { toggle := toggle, handheld := handheld, answer := a } }

end Sys2Proof.Safety
end

