-- ==== Sys2Proof/Certificates/Slice0/Obligations.lean ====
section
/-! DEFINITION. The statements for the provers. Each says what the manual's rules, named in its docstring,
say of the part; `exec` is the meaning of a command and `step` takes one from the queue. -/

section

open Sys2Proof Sys2Proof.Machine Sys2Proof.Safety

/-! ## The part, its queue and its invariants -/

/-- A step takes the command at the front of the queue and runs it with the queue's rest. That an empty
queue idles is the model's choice (log entry 3). -/
def Obligations.StepTakesTheFrontCommand : Prop :=
  (∀ (c : Instr) (rest : List Instr) (s : State),
    step { s with pending := c :: rest } = exec c { s with pending := rest }) ∧
  ∀ s : State, s.pending = [] → step s = .next s

/-- Power-on reset puts every block at its power-on values. The queue of waiting commands is the model's
and stays (log entry 1). -/
def Obligations.PowerOnResetRestoresEveryBlock : Prop :=
  ∀ s : State, ∃ t, exec .powerOnReset s = .next t ∧ t.pending = s.pending ∧
    (t.olp.session = .closed ∧ t.olp.clock = 0 ∧ t.olp.tagSeq = 1 ∧ t.olp.orderSeq = 1 ∧
      t.olp.placeSeq = 1 ∧ t.rdy = false ∧ t.attn = false) ∧
    (t.passes = [] ∧ t.orders = [] ∧ t.queue = [] ∧ t.held = [] ∧ t.untagged = 0) ∧
    (t.transitLimit = 900 ∧ t.vacateGrace = 90 ∧ t.agingPeriod = 240 ∧ t.agingCount = 240) ∧
    t.master = ⟨7, 2048⟩ ∧
    (∀ l : Lot, t.programmeAt l = [] ∧
      t.boothAt l = { state := .dark, current := none, start := none, latched := none,
                      haltReason := none, late := false, gap := false, intermission := none,
                      preRoll := none, motorLead := 12, projA := { state := .empty, pos := none },
                      projB := { state := .empty, pos := none } } ∧
      ((t.lineAt l).up = false ∧ (t.lineAt l).inFlight = none ∧ (t.lineAt l).queue = [] ∧
        (t.lineAt l).staged = none ∧ (t.lineAt l).lastDrive = none ∧ (t.lineAt l).nextNumber = 0 ∧
        (t.lineAt l).dropped = 0) ∧
      t.channelAt l = { segLevel := ⟨0, 0⟩, source := .silent, trim := ⟨7, 2048⟩, corr := ⟨7, 2048⟩,
                        cMin := ⟨5, 2048⟩, cMax := ⟨7, 8191⟩, target := ⟨7, 2048⟩,
                        autoLevel := false, fill := ⟨7, 2048⟩, duck := ⟨7, 2048⟩,
                        announcing := false, announceDeadline := none, policy := .flush,
                        gain := ⟨0, 0⟩, drive := 0, conds := ⟨false, false, false, false, false⟩,
                        mask := ⟨true, true, true, true, true⟩, lastCause := none } ∧
      t.lotAt l = { inside := 0, heads := 0, parked := 0, admittedCar := 0, admittedVan := 0,
                    admittedPassholder := 0, admittedComp := 0, exits := 0, unsettled := 0,
                    capacity := 0, headLimit := 0, policy := .hold, window := .closed,
                    postLevel := 2, handLevel := 3, rushLevel := 5 } ∧
      t.laneAt l = { state := .idle, tag := none, untagged := false, order := .down,
                     reported := .down, lastRefusal := none }) ∧
    (∀ (l : Lot) (n : Nat), t.stallAt l n =
      { state := .free, tag := none, grace := none, lampDesired := .off, online := false,
        lampReported := .off, display := none, draft := none }) ∧
    (∀ n : LoopId, (t.loopAt n).count = 0 ∧ (t.loopAt n).pos = none ∧ (t.loopAt n).callSlot = none ∧
      ∀ a : Nat, (t.unitAt n a).fitted = true ∧ (t.unitAt n a).online = false ∧
        (t.unitAt n a).miss = 0 ∧ (t.unitAt n a).accepted = none ∧ (t.unitAt n a).ackOwed = none ∧
        (t.unitAt n a).carried = none ∧ (t.unitAt n a).pending = none) ∧
    (∀ i : Nat, (t.priceAt i).listed = false) ∧
    ∀ k : Fin 4, t.stationAt k = { online := false, baseFloor := 0, stack := [] }

/-- The state after power-on reset meets every law that a step keeps. -/
def Obligations.ResetMeetsEveryLaw : Prop :=
  LotLimits State.reset ∧ SettingsInRange State.reset ∧ LinesInShape State.reset ∧
    LevelsLawful State.reset ∧ RecordsInForm State.reset ∧ ProgrammesWellFormed State.reset ∧
    OneOnScreen State.reset ∧ OccupancyAgrees State.reset ∧ KitchenAgrees State.reset

/-- R8: whatever command a step takes, no lot's inside exceeds its capacity and no lot's heads its head
limit. -/
def Obligations.StepKeepsLotLimits : Prop :=
  ∀ s t : State, LotLimits s → step s = .next t → LotLimits t

/-- R185, R9: whatever command a step takes, every clamped setting stays within its range. -/
def Obligations.StepKeepsSettingsInRange : Prop :=
  ∀ s t : State, SettingsInRange s → step s = .next t → SettingsInRange t

/-- R103, R107, R111, R79: whatever command a step takes, every booth line keeps at most seven waiting
commands, holds nothing while DOWN, and lets nothing wait without a command in flight; and no booth has
more than one projector ON_SCREEN, nor any outside RUNNING and CHANGEOVER_PENDING or with the gap flag
set. -/
def Obligations.StepKeepsLinesInShape : Prop :=
  (∀ s t : State, LinesInShape s → step s = .next t → LinesInShape t) ∧
  ∀ s t : State, OneOnScreen s → step s = .next t → OneOnScreen t

/-- R117, R128: whatever command a step takes, every level word held stays true zero or normalised, C
stays within its limits and the drive code within 0 to 4,095. -/
def Obligations.StepKeepsLevelsLawful : Prop :=
  ∀ s t : State, LevelsLawful s → step s = .next t → LevelsLawful t

/-- R6, R7, R8, R167, R168, R169: whatever command a step takes, every table keeps its one canonical form;
passes, stalls and counters go on telling one story (a stall is bound exactly in OCCUPIED and VACATED, to a
PARKED pass that names it; inside, heads and parked count what they name); and with them the kitchen queue
stays the PLACED orders in order, the held list the HELD orders in order, and every stack the orders of its
station with levels rising to the top. -/
def Obligations.StepKeepsRecordsInForm : Prop :=
  (∀ s t : State, RecordsInForm s → step s = .next t → RecordsInForm t) ∧
  (∀ s t : State, OccupancyAgrees s → step s = .next t → OccupancyAgrees t) ∧
  ∀ s t : State, OccupancyAgrees s → KitchenAgrees s → step s = .next t → KitchenAgrees t

/-- R67: whatever command a step takes, every programme stays empty or well formed. -/
def Obligations.StepKeepsProgrammesWellFormed : Prop :=
  ∀ s t : State, ProgrammesWellFormed s → step s = .next t → ProgrammesWellFormed t

/-! ## The office link -/

/-- R184, R191: the frame of a well-formed office request is read back as that request. -/
def Obligations.OfficeFramesReadBack : Prop :=
  ∀ (i : Instr) (bytes : List Byte), WellFormed.instr i = true →
    Decode.encodeFrame i = some bytes → Decode.decodeFrame bytes = .request i

/-- R182, R184: a transfer whose frame passes every check is the request it spells, taken whole by its
owner. -/
def Obligations.OfficeTransferRunsItsRequest : Prop :=
  ∀ (i : Instr) (bytes : List Byte) (s : State), Decode.decodeFrame bytes = .request i →
    ∃ t, exec i s = .next t ∧ exec (.officeTransfer bytes) s = .next t

/-- R182, R191: no request, FRAME_ERROR with the sequence byte received, UNKNOWN_REQUEST, and FRAME_ERROR for
parameters that are not of the size of their code, whatever the code. That byte 3 is echoed also where the
length field is 1 to 3 is the model's choice (log entry 32), and so is the size of a DELIVER, with a lot
before its stall (log entry 9). -/
def Obligations.OfficeTransferRefusesBadFrames : Prop :=
  (∀ (rest : List Byte) (s : State), exec (.officeTransfer (0 :: 0 :: rest)) s = .next s) ∧
  (∀ (b0 b1 : Byte) (rest : List Byte) (s : State), ¬(b0 = 0 ∧ b1 = 0) →
    (Decode.num16 b0 b1 < 5 ∨ 8191 < Decode.num16 b0 b1 ∨ rest.length + 2 < Decode.num16 b0 b1 ∨
      Decode.byteSum ((b0 :: b1 :: rest).take (Decode.num16 b0 b1)) ≠ 0) →
    exec (.officeTransfer (b0 :: b1 :: rest)) s =
      .next (giveOffice (rest.getD 1 0) (refuse .frameError) s)) ∧
  (∀ (code : Nat) (q : Byte) (ps : List Byte) (s : State), code < 256 → ps.length ≤ 8186 →
    (code = 0 ∨ (7 ≤ code ∧ code ≤ 15) ∨ (40 ≤ code ∧ code ≤ 43) ∨ code = 46 ∨ code = 47 ∨
      (53 ≤ code ∧ code ≤ 55) ∨ code = 63 ∨ code = 78 ∨ code = 79 ∨ code = 95 ∨ 105 ≤ code) →
    exec (.officeTransfer (Decode.frameOf ⟨code, q, ps⟩)) s =
      .next (giveOffice q (refuse .unknownRequest) s)) ∧
  ∀ (code n : Nat) (q : Byte) (ps : List Byte) (s : State), code < 256 → ps.length ≤ 8186 →
    paramSize code ps = some n → ps.length ≠ n →
    exec (.officeTransfer (Decode.frameOf ⟨code, q, ps⟩)) s =
      .next (giveOffice q (refuse .frameError) s)

/-- R183, R186, R190: Set Clock and Read Clock answer, a response written over an unread one carries
OVERRUN, a response read leaves the slot empty, and Read Notices returns the whole notice set, empties
it and releases ATTN. Data out carries the unread response from its first byte, a frame whose bytes sum to
0, and bytes of 0 when none is unread; a level word in a response is laid out as in a request (R114), a
time of day is three bytes, high byte first, and the notice read-out one byte for each kind. -/
def Obligations.ClockAndNoticesAnswerThroughTheSlot : Prop :=
  ((∀ (q : Byte) (s : State), exec (.readClock q) s = .next (s.setOlp { s.olp with
    slot := some { overrun := s.rdy, seq := q, answer := okWith (.clock s.olp.clock) } })) ∧
  (∀ (q : Byte) (v : Nat) (s : State), exec (.setClock q v) s = .next (s.setOlp { s.olp with
    clock := min v 86399
    slot := some { overrun := s.rdy, seq := q, answer := okWith (.clock (min v 86399)) } })) ∧
  ∀ s : State, ∃ t, exec .responseRead s = .next t ∧ t = s.setOlp { s.olp with slot := none } ∧
    t.rdy = false) ∧
  (∀ (q : Byte) (s : State), ∃ t, exec (.readNotices q) s = .next t ∧ t.attn = false ∧
    t = giveOffice q (okWith (.notices s.olp.notices))
      (s.setOlp { s.olp with notices := Vector.replicate 15 Notice.clear })) ∧
  (∀ (n : Nat) (s : State), s.rdy = false → s.dataOut n = List.replicate n 0) ∧
  (∀ (n : Nat) (r : Response) (s : State), s.olp.slot = some r → (s.dataOut n).length = n ∧
    (n ≤ (responseFrame r).length → s.dataOut n = (responseFrame r).take n) ∧
    Decode.byteSum (responseFrame r) = 0 ∧
    (responseFrame r).length = (dataBytes r.answer.data).length + 5) ∧
  (∀ w : LevelWord, w.e ≤ 7 → w.m ≤ 8191 →
    ∃ hi lo, dataBytes (.word w) = [hi, lo] ∧ Decode.levelOf hi lo = w) ∧
  (∀ v : Nat, v ≤ 86399 →
    (dataBytes (.clock v)).map BitVec.toNat = [v / 65536, v / 256 % 256, v % 256]) ∧
  ∀ ns : Bank Notice 15, (dataBytes (.notices ns)).map BitVec.toNat =
    ns.toList.map fun x => (if x.pending then 128 else 0) + x.mask.toNat

/-- R190, R17, R78, R138, R151, R175: where no count stands at zero, one second raises the site clock,
midnight stepping to 0, and lowers every running count; nothing else changes. Where counts stand at zero
their expiries come first: the second is then that of the state their rows leave. That an expiry is a row
of its own, taken while its count stands at zero and at the latest by the next second, is the model's
reading of the table (log entry 4). -/
def Obligations.SecondTickLowersEveryCount : Prop :=
  (∀ s : State, RecordsInForm s → dueRows s = [] → ∃ t, exec .siteClockTick s = .next t ∧
    t.olp = { s.olp with clock := if s.olp.clock < 86399 then s.olp.clock + 1 else 0 } ∧
    t.agingCount = s.agingCount - 1 ∧
    (∀ tag, t.passAt tag = (s.passAt tag).map fun p =>
      { p with transit := p.transit.map fun n => n - 1 }) ∧
    (∀ l n, t.stallAt l n =
      { s.stallAt l n with grace := (s.stallAt l n).grace.map fun k => k - 1 }) ∧
    (∀ l, t.boothAt l = { s.boothAt l with
      intermission := (s.boothAt l).intermission.map fun n => n - 1
      preRoll := (s.boothAt l).preRoll.map fun n => n - 1 }) ∧
    (∀ l, t.channelAt l = { s.channelAt l with
      announceDeadline := (s.channelAt l).announceDeadline.map fun n => n - 1 }) ∧
    (∀ n, t.orderAt n = (s.orderAt n).map fun o =>
      { o with draftDeadline := o.draftDeadline.map fun k => k - 1 }) ∧
    t = { s with
      olp := t.olp, passes := t.passes, stalls := t.stalls, booths := t.booths,
      channels := t.channels, orders := t.orders, agingCount := t.agingCount }) ∧
  ∀ s u : State, runRows (dueRows s) s = some u → dueRows u = [] →
    ∃ t, exec .siteClockTick u = .next t ∧ exec .siteClockTick s = .next t

/-! ## The session -/

/-- R187, R188, R24, R164: Open Session from CLOSED clears the night's counters, sets the sequences to 1 and
derives the windows; Close Session from OPEN closes every window and leaves the session CLOSING, or
CLOSED with its notice when no pass is live and the order table is empty; in another state each is
refused BAD_STATE. Each window that changes is called on its lot's two loops (R59, R150), and one that goes
RUSH releases its lot's held orders (R178). The clauses of Open Session hold with orders in the table too,
where R187 and R164 say it is empty: that it is then taken, the sequences set to 1, the orders, the queue
and the held list kept and held orders released at a RUSH is the model's choice (log entry 33, by way of the
office's PLACE in CLOSED, log entry 29). -/
def Obligations.SessionOpensAndCloses : Prop :=
  ((∀ (q : Byte) (s : State), s.olp.session = .closed → ∃ t, exec (.openSession q) s = .next t ∧
    (∀ (l : Lot) (n : LoopId), n = firstLoop l ∨ n = secondLoop l → t.loopAt n =
      if (t.lotAt l).window = (s.lotAt l).window then s.loopAt n
      else { s.loopAt n with callSlot := some (callCode (t.lotAt l).window) }) ∧
    t.loopAt 12 = s.loopAt 12 ∧
    (∀ (l : Lot) (n : Nat) (o : OrderRec), (t.lotAt l).window = .rush → (s.lotAt l).window ≠ .rush →
      n ∈ s.held → heldOfLot s l n = true → s.orderAt n = some o →
      t.orderAt n = some { o with
        state := .placed, level := some (s.lotAt l).rushLevel, lastRaise := some s.olp.clock } ∧
      n ∈ t.queue ∧ n ∉ t.held) ∧
    ((∀ l : Lot, (t.lotAt l).window = .rush → (s.lotAt l).window = .rush) →
      t.orders = s.orders ∧ t.queue = s.queue ∧ t.held = s.held) ∧
    t.olp.session = .open ∧ t.olp.tagSeq = 1 ∧ t.olp.orderSeq = 1 ∧ t.olp.placeSeq = 1 ∧
    t.olp.clock = s.olp.clock ∧ t.olp.slot = some { overrun := s.rdy, seq := q, answer := okWith .none } ∧
    t.untagged = 0 ∧ t.passes = s.passes ∧ t.stalls = s.stalls ∧ t.prices = s.prices ∧
    t.booths = s.booths ∧ t.channels = s.channels ∧ t.lines = s.lines ∧ t.lanes = s.lanes ∧
    ∀ l : Lot, t.lotAt l = { s.lotAt l with
      admittedCar := 0, admittedVan := 0, admittedPassholder := 0, admittedComp := 0, exits := 0,
      unsettled := 0
      window := if (s.boothAt l).state = .ended then .closed
        else match currentEntry s l with
          | some e => if isRushEntry e then .rush else .open
          | none => .open }) ∧
  ∀ (q : Byte) (s : State), s.olp.session ≠ .closed →
    exec (.openSession q) s = .next (giveOffice q (refuse .badState) s)) ∧
  ((∀ (q : Byte) (s : State), s.olp.session = .open → ∃ t x, exec (.closeSession q) s = .next t ∧
    x = (if s.passes = [] ∧ s.orders = [] then Session.closed else Session.closing) ∧
    t.olp.session = x ∧ (∀ l : Lot, t.lotAt l = { s.lotAt l with window := .closed }) ∧
    (∀ (l : Lot) (n : LoopId), n = firstLoop l ∨ n = secondLoop l → t.loopAt n =
      if (s.lotAt l).window = .closed then s.loopAt n
      else { s.loopAt n with callSlot := some 39 }) ∧
    t.loopAt 12 = s.loopAt 12 ∧
    t.olp.slot = some { overrun := s.rdy, seq := q, answer := okWith (.session x) } ∧
    (x = .closed → (t.noticeOf .sessionClosed).pending = true ∧
      (t.noticeOf .sessionClosed).mask.getLsbD 0 = true) ∧
    (x = .closing → t.olp.notices = s.olp.notices) ∧
    t.passes = s.passes ∧ t.stalls = s.stalls ∧ t.orders = s.orders ∧ t.queue = s.queue ∧
    t.held = s.held ∧ t.stations = s.stations ∧ t.booths = s.booths ∧ t.channels = s.channels ∧
    t.lines = s.lines ∧ t.lanes = s.lanes ∧ t.programmes = s.programmes) ∧
  ∀ (q : Byte) (s : State), s.olp.session ≠ .open →
    exec (.closeSession q) s = .next (giveOffice q (refuse .badState) s))

/-- R189, R25, R165, R180: Force Close empties every table, stack, queue and draft field, frees every
stall that held a car, closes the session with its notice, and answers the passes retired and the orders
freed; lanes, booths, programmes, channels and lines stay. In CLOSED it is refused. -/
def Obligations.ForceCloseEmptiesEveryTable : Prop :=
  (∀ (q : Byte) (s : State), s.olp.session ≠ .closed → ∃ t, exec (.forceClose q) s = .next t ∧
    t.olp.session = .closed ∧ t.passes = [] ∧ t.orders = [] ∧ t.queue = [] ∧ t.held = [] ∧
    (∀ k : Fin 4, (t.stationAt k).stack = []) ∧
    (∀ l n, ((t.stallAt l n).state = .free ∨ (t.stallAt l n).state = .outOfService) ∧
      (t.stallAt l n).draft = none) ∧
    (∀ l : Lot, (t.lotAt l).window = .closed) ∧
    (∀ (l : Lot) (n : LoopId), n = firstLoop l ∨ n = secondLoop l → t.loopAt n =
      if (s.lotAt l).window = .closed then s.loopAt n
      else { s.loopAt n with callSlot := some 39 }) ∧
    t.loopAt 12 = s.loopAt 12 ∧
    (t.noticeOf .sessionClosed).pending = true ∧
    t.olp.slot = some { overrun := s.rdy, seq := q,
                        answer := okWith (.values [some s.passes.length, some s.orders.length]) } ∧
    t.olp.tagSeq = s.olp.tagSeq ∧ t.lanes = s.lanes ∧ t.booths = s.booths ∧
    t.programmes = s.programmes ∧ t.channels = s.channels ∧ t.lines = s.lines) ∧
  ∀ (q : Byte) (s : State), s.olp.session = .closed →
    exec (.forceClose q) s = .next (giveOffice q (refuse .badState) s)


/-! ## Requests that name a thing, and reads -/

/-- R185, R8, R20, R26: an office request that names a lot outside 1 to 6, or a stall outside 1 to 384, is
answered OUT_OF_RANGE and changes nothing else. -/
def Obligations.LotsOutsideOneToSixAreRefused : Prop :=
  (∀ (q : Byte) (lot n v : Nat) (e : EntryParam) (es : List EntryParam) (w x : LevelWord) (b : Bool)
    (o : Option Nat) (s : State), lot = 0 ∨ 6 < lot →
    ∀ i ∈ ([.readStall q lot n, .readLot q lot, .setCapacity q lot v, .setHeadLimit q lot v,
      .setExitPolicy q lot v, .setLotLevels q lot o o o, .setOutOfService q lot n,
      .clearOutOfService q lot n, .sensorPresent (.office q) lot n, .sensorGone (.office q) lot n,
      .keyTag (.office q) lot n v, .lookupStall (.office q) lot n, .loadProgramme q lot es,
      .editSegment q lot n e, .insertSegment q lot n e, .deleteSegment q lot n, .readProgramme q lot,
      .startShow q lot, .halt q lot, .resume q lot n, .clearBooth q lot, .setMotorLead q lot v,
      .readBooth q lot, .readLine q lot b, .setTrim q lot w, .setCorrection q lot w,
      .setCorrectionLimits q lot w x, .setFillLevel q lot w, .setDuckLevel q lot w, .setTarget q lot w,
      .setAutoLevel q lot b, .setUnderflowPolicy q lot v, .setAlertMask q lot v,
      .clearConditions q lot, .readChannel q lot, .readLotWindow q lot, .keyLine (.office q) lot n v v,
      .keySubmit (.office q) lot n b, .keyCancel (.office q) lot n] : List Instr),
    exec i s = .next (giveOffice q (refuse .outOfRange) s)) ∧
  ∀ (q : Byte) (lot n v w : Nat) (b : Bool) (s : State), n = 0 ∨ 384 < n →
    ∀ i ∈ ([.readStall q lot n, .setOutOfService q lot n, .clearOutOfService q lot n,
      .sensorPresent (.office q) lot n, .sensorGone (.office q) lot n, .keyTag (.office q) lot n v,
      .lookupStall (.office q) lot n, .keyLine (.office q) lot n v w,
      .keySubmit (.office q) lot n b, .keyCancel (.office q) lot n] : List Instr),
    exec i s = .next (giveOffice q (refuse .outOfRange) s)

/-- R26, R42, R64, R77, R102, R113, R144: each read of a pass, stall, lot, lane, loop, programme, booth,
line or channel answers the record as it stands and changes nothing but the response slot; the clear
option of Read Line then clears the dropped-frames counter. The pass read-out and the stall read-out are
laid out as "central layouts" gives. That Read Lot carries the window, that Read Programme gives a
projector's position in every state, and where two orders of one placement sequence stand in LOOKUP_STALL,
are the model's choices (log entries 38, 39 and 40). -/
def Obligations.RecordReadsAnswerTheRecord : Prop :=
  (∀ (q : Byte) (s : State),
    (∀ tag, exec (.readPass q tag) s = .next (giveOffice q (match s.passAt tag with
      | some p => okWith (.pass tag p)
      | none => refuse .noSuch) s)) ∧
    (∀ tag, exec (.findTag q tag) s = .next (giveOffice q (match s.passAt tag with
      | some p => okWith (.found p.state p.lot p.stall p.lane)
      | none => refuse .noSuch) s)) ∧
    (∀ (l : Lot) (n : Nat), 1 ≤ n → n ≤ 384 →
      exec (.readStall q (lotNumber l) n) s =
        .next (giveOffice q (okWith (.stall l n (s.stallAt l n))) s) ∧
      exec (.lookupStall (.office q) (lotNumber l) n) s = .next (giveOffice q (okWith (.lookup
        (if (s.stallAt l n).state = .occupied ∨ (s.stallAt l n).state = .vacated then
          (s.stallAt l n).tag.bind fun t => (s.passAt t).map fun p => (t, p.tab,
            (placedOrdersOf s t).map fun v => { number := v.number, state := v.state, total := v.total })
        else none))) s)) ∧
    (∀ l : Lot, exec (.readLot q (lotNumber l)) s =
        .next (giveOffice q (okWith (.lot (s.lotAt l) s.untagged)) s) ∧
      exec (.readLane q (lotNumber l)) s = .next (giveOffice q (okWith (.lane l (s.laneAt l))) s) ∧
      exec (.readBooth q (lotNumber l)) s = .next (giveOffice q (okWith (.booth (s.boothAt l))) s) ∧
      exec (.readProgramme q (lotNumber l)) s = .next (giveOffice q (okWith (.programme
        (s.programmeAt l) (s.boothAt l).current
        (if (s.boothAt l).latched = none then none else (s.boothAt l).current.map fun c => c + 1)
        (s.boothAt l).projA (s.boothAt l).projB)) s) ∧
      exec (.readLine q (lotNumber l) false) s =
        .next (giveOffice q (okWith (.line (s.lineAt l))) s) ∧
      exec (.readLine q (lotNumber l) true) s = .next (giveOffice q (okWith (.line (s.lineAt l)))
        (s.setLine l { s.lineAt l with dropped := 0 })) ∧
      exec (.readChannel q (lotNumber l)) s = .next (giveOffice q (okWith (.channel (s.channelAt l)
        (decide ((s.channelAt l).conds ≠ Conds.empty)) s.master)) s)) ∧
    ∀ n : LoopId, exec (.readLoop q n.val) s = .next (giveOffice q (okWith (.loop (s.loopAt n).count
      (if n.val = 12 then none else (s.loopAt n).callSlot)
      ((List.range (if n.val = 12 then 11 else 192)).map fun i =>
        { address := i + 1, fitted := (s.unitAt n (i + 1)).fitted,
          online := (s.unitAt n (i + 1)).online, miss := (s.unitAt n (i + 1)).miss,
          pending := (s.unitAt n (i + 1)).pending.isSome }))) s)) ∧
  (∀ (tag : Nat) (p : PassRec), (dataBytes (.pass tag p)).map BitVec.toNat =
    [tag / 256 % 256, tag % 256,
      match p.state with
        | .inLane => 0
        | .inTransit => 1
        | .parked => 2,
      lotNumber p.lot,
      match p.fee with
        | .car => 0
        | .van => 1
        | .passholder => 2
        | .comp => 3,
      p.party % 256,
      (if p.lane = none then 0 else 1) + (if p.stall = none then 0 else 2) +
        (if p.transit = none then 0 else 4),
      p.lane.getD 0 % 256, p.stall.getD 0 / 256 % 256, p.stall.getD 0 % 256,
      p.admitTime / 65536 % 256, p.admitTime / 256 % 256, p.admitTime % 256,
      p.transit.getD 0 / 256 % 256, p.transit.getD 0 % 256, if p.overdue then 1 else 0,
      p.tab / 65536 % 256, p.tab / 256 % 256, p.tab % 256]) ∧
  ∀ (l : Lot) (n : Nat) (st : StallRec), (dataBytes (.stall l n st)).map BitVec.toNat =
    [lotNumber l, n / 256 % 256, n % 256,
      match st.state with
        | .free => 0
        | .arrived => 1
        | .occupied => 2
        | .vacated => 3
        | .outOfService => 4,
      (if st.tag = none then 0 else 1) + (if st.grace = none then 0 else 2) +
        (if st.display = none then 0 else 4) + (if st.draft = none then 0 else 8),
      st.tag.getD 0 / 256 % 256, st.tag.getD 0 % 256,
      st.grace.getD 0 / 256 % 256, st.grace.getD 0 % 256,
      match st.lampDesired with
        | .off => 0
        | .steady => 1
        | .flash => 2,
      if st.online then 1 else 0,
      match st.lampReported with
        | .off => 0
        | .steady => 1
        | .flash => 2,
      st.display.getD 0 % 256, st.draft.getD 0 / 256 % 256, st.draft.getD 0 % 256,
      if st.state = .outOfService then 1 else 0]

/-! ## The Lot Register -/

/-- R8, R9, R17, R82, R170, R175: each clamped setting is stored at the nearer bound and reported; a
capacity or head limit below the counter it limits is refused; a setting left out keeps its value; a new
aging period leaves the running count. That an exit policy other than HOLD or OPEN is refused is the
model's reading of R185 (log entry 8), and that Set Lot Levels and Set Timers report every stored value, one left
out too, and with no value present are taken and write nothing is its choice (log entry 34). -/
def Obligations.SettingsAreClampedAndReported : Prop :=
  (∀ (q : Byte) (l : Lot) (v : Nat) (s : State),
    exec (.setCapacity q (lotNumber l) v) s = .next
      (if min v 384 < (s.lotAt l).inside then giveOffice q (refuse .outOfRange) s
      else giveOffice q (okWith (.values [some (min v 384)]))
        (s.setLot l { s.lotAt l with capacity := min v 384 })) ∧
    exec (.setHeadLimit q (lotNumber l) v) s = .next
      (if min v 3072 < (s.lotAt l).heads then giveOffice q (refuse .outOfRange) s
      else giveOffice q (okWith (.values [some (min v 3072)]))
        (s.setLot l { s.lotAt l with headLimit := min v 3072 }))) ∧
  (∀ (q : Byte) (l : Lot) (s : State),
    (exec (.setExitPolicy q (lotNumber l) 0) s =
        .next (giveOffice q (okWith .none) (s.setLot l { s.lotAt l with policy := .hold })) ∧
      exec (.setExitPolicy q (lotNumber l) 1) s =
        .next (giveOffice q (okWith .none) (s.setLot l { s.lotAt l with policy := .open })) ∧
      ∀ v, 2 ≤ v → exec (.setExitPolicy q (lotNumber l) v) s =
        .next (giveOffice q (refuse .outOfRange) s)) ∧
    (∀ p h r : Option Nat, ∃ p' h' r' : Nat,
      exec (.setLotLevels q (lotNumber l) p h r) s = .next
        (giveOffice q (okWith (.values [some p', some h', some r']))
          (s.setLot l { s.lotAt l with postLevel := p', handLevel := h', rushLevel := r' })) ∧
      (p = none → p' = (s.lotAt l).postLevel) ∧ (∀ v, p = some v → p' = max 1 (min v 6)) ∧
      (h = none → h' = (s.lotAt l).handLevel) ∧ (∀ v, h = some v → h' = max 1 (min v 6)) ∧
      (r = none → r' = (s.lotAt l).rushLevel) ∧ (∀ v, r = some v → r' = max 1 (min v 7))) ∧
    (∀ a g : Option Nat, ∃ a' g' : Nat,
      exec (.setTimers q a g) s = .next (giveOffice q (okWith (.values [some a', some g']))
        { s with transitLimit := a', vacateGrace := g' }) ∧
      (a = none → a' = s.transitLimit) ∧ (∀ v, a = some v → a' = max 120 (min v 3600)) ∧
      (g = none → g' = s.vacateGrace) ∧ (∀ v, g = some v → g' = max 20 (min v 300))) ∧
    (∀ v, exec (.setMotorLead q (lotNumber l) v) s =
      .next (giveOffice q (okWith (.values [some (max 5 (min v 30))]))
        (s.setBooth l { s.boothAt l with motorLead := max 5 (min v 30) }))) ∧
    (∀ (k : Fin 4) (v : Nat), exec (.setBaseFloor q (k.val + 1) v) s =
      .next (giveOffice q (okWith (.values [some (min v 6)]))
        (s.setStation k { s.stationAt k with baseFloor := min v 6 }))) ∧
    ∀ v, exec (.setAgingPeriod q v) s =
      .next (giveOffice q (okWith (.values [some (max 60 (min v 900))]))
        { s with agingPeriod := max 60 (min v 900) }))

/-- R20: Set Out Of Service is taken on a FREE stall alone and Clear Out Of Service on an OUT_OF_SERVICE
stall alone; else BAD_STATE, with the stall unchanged. -/
def Obligations.OutOfServiceIsSetOnFreeStalls : Prop :=
  ∀ (q : Byte) (l : Lot) (n : Nat) (s : State), 1 ≤ n → n ≤ 384 →
    exec (.setOutOfService q (lotNumber l) n) s = .next
      (if (s.stallAt l n).state = .free then
        giveOffice q (okWith .none) (s.setStall l n { s.stallAt l n with state := .outOfService })
      else giveOffice q (refuse .badState) s) ∧
    exec (.clearOutOfService q (lotNumber l) n) s = .next
      (if (s.stallAt l n).state = .outOfService then
        giveOffice q (okWith .none) (s.setStall l n { s.stallAt l n with state := .free })
      else giveOffice q (refuse .badState) s)

/-- R10, R11: a sensor report of a stall's own post moves that stall by its state, and changes nothing
else: no display, no binding, no pass and no counter. From the office (R184) it is answered OK besides. -/
def Obligations.SensorReportsMoveTheStallByItsState : Prop :=
  ∀ (q : Byte) (l : Lot) (n : Nat) (s : State), 1 ≤ n → n ≤ 384 →
    (∃ t, exec (.sensorPresent .post (lotNumber l) n) s = .next t ∧
      (∃ d, exec (.sensorPresent (.office q) (lotNumber l) n) s =
        .next (giveOffice q (okWith d) t)) ∧
      t.stallAt l n = (match (s.stallAt l n).state with
        | .free => { s.stallAt l n with state := .arrived }
        | .arrived => s.stallAt l n
        | .occupied => s.stallAt l n
        | .vacated => { s.stallAt l n with state := .occupied, grace := none }
        | .outOfService => s.stallAt l n) ∧
      (∀ k m, ¬(k = l ∧ m = n) → t.stallAt k m = s.stallAt k m) ∧ t = { s with stalls := t.stalls }) ∧
    (∃ t, exec (.sensorGone .post (lotNumber l) n) s = .next t ∧
      (∃ d, exec (.sensorGone (.office q) (lotNumber l) n) s =
        .next (giveOffice q (okWith d) t)) ∧
      t.stallAt l n = (match (s.stallAt l n).state with
        | .free => s.stallAt l n
        | .arrived => { s.stallAt l n with state := .free }
        | .occupied => { s.stallAt l n with state := .vacated, grace := some s.vacateGrace }
        | .vacated => s.stallAt l n
        | .outOfService => s.stallAt l n) ∧
      (∀ k m, ¬(k = l ∧ m = n) → t.stallAt k m = s.stallAt k m) ∧ t = { s with stalls := t.stalls })

/-- R12, R16: the five tests of a KEY_TAG in order, with the display code each writes and the answer the
office gets; a refused check-in changes nothing but the display, and a taken one shows the welcome code. A
check-in on the stall already bound to the tag confirms the binding: a VACATED stall goes OCCUPIED without
its grace, and nothing else changes. -/
def Obligations.KeyTagRunsFiveTestsInOrder : Prop :=
  (∀ (q : Byte) (l : Lot) (n tag : Nat) (s : State), 1 ≤ n → n ≤ 384 → ∃ t code why,
    exec (.keyTag .post (lotNumber l) n tag) s = .next t ∧
    exec (.keyTag (.office q) (lotNumber l) n tag) s =
      .next (giveOffice q { status := why, data := .none } t) ∧
    (t.stallAt l n).display = some code ∧
    (code ≠ 10 → t = s.setStall l n { s.stallAt l n with display := some code }) ∧
    (code, why) =
      (if (s.stallAt l n).state = .outOfService then (20, Status.badState)
      else if ((s.stallAt l n).state = .occupied ∨ (s.stallAt l n).state = .vacated) ∧
        (s.stallAt l n).tag ≠ some tag then (21, .stallTaken)
      else match s.passAt tag with
        | none => (23, .noSuch)
        | some p =>
          if p.state = .inLane then (20, .badState)
          else if p.lot ≠ l ∧ ¬((s.lotAt l).inside < (s.lotAt l).capacity ∧
            (s.lotAt l).heads + p.party ≤ (s.lotAt l).headLimit) then (22, .wrongLot)
          else (10, .ok))) ∧
  ∀ (l : Lot) (n tag : Nat) (p : PassRec) (s : State), 1 ≤ n → n ≤ 384 →
    (s.stallAt l n).state = .occupied ∨ (s.stallAt l n).state = .vacated →
    (s.stallAt l n).tag = some tag → s.passAt tag = some p → p.state ≠ .inLane → p.lot = l →
    exec (.keyTag .post (lotNumber l) n tag) s = .next (s.setStall l n { s.stallAt l n with
      state := .occupied, display := some 10
      grace := if (s.stallAt l n).state = .vacated then none else (s.stallAt l n).grace })

/-- R13, R15, R6, R158: a check-in of an IN_TRANSIT pass on an unbound stall binds the two, with the lot
transfer when the pass comes from another lot; no other stall, pass, lot, order or notice changes. -/
def Obligations.CheckInBindsStallAndPass : Prop :=
  ∀ (l : Lot) (n tag : Nat) (p : PassRec) (s : State), 1 ≤ n → n ≤ 384 →
    (s.stallAt l n).state = .free ∨ (s.stallAt l n).state = .arrived →
    s.passAt tag = some p → p.state = .inTransit →
    (p.lot = l ∨ ((s.lotAt l).inside < (s.lotAt l).capacity ∧
      (s.lotAt l).heads + p.party ≤ (s.lotAt l).headLimit)) →
    ∃ t, exec (.keyTag .post (lotNumber l) n tag) s = .next t ∧
      t.stallAt l n = { s.stallAt l n with
        state := .occupied, tag := some tag, grace := none, display := some 10
        lampDesired := lampOf s.orders tag } ∧
      t.passAt tag = some { p with
        state := .parked, lot := l, stall := some n, transit := none, overdue := false } ∧
      (p.lot = l → t.lotAt l = { s.lotAt l with parked := (s.lotAt l).parked + 1 }) ∧
      (p.lot ≠ l →
        t.lotAt l = { s.lotAt l with
          inside := (s.lotAt l).inside + 1, heads := (s.lotAt l).heads + p.party
          parked := (s.lotAt l).parked + 1 } ∧
        t.lotAt p.lot = { s.lotAt p.lot with
          inside := (s.lotAt p.lot).inside - 1, heads := (s.lotAt p.lot).heads - p.party }) ∧
      (∀ k m, ¬(k = l ∧ m = n) → t.stallAt k m = s.stallAt k m) ∧
      (∀ u, u ≠ tag → t.passAt u = s.passAt u) ∧
      (∀ k, k ≠ l → k ≠ p.lot → t.lotAt k = s.lotAt k) ∧
      t = { s with stalls := t.stalls, passes := t.passes, lots := t.lots }

/-- R14, R15, R154, R158: a check-in of a pass PARKED at another stall frees the old stall, settles its
draft and binds the new one, parked moving with the car. -/
def Obligations.MoveFreesTheOldStall : Prop :=
  ∀ (l : Lot) (n m tag : Nat) (p : PassRec) (s : State), 1 ≤ n → n ≤ 384 →
    (s.stallAt l n).state = .free ∨ (s.stallAt l n).state = .arrived →
    s.passAt tag = some p → p.state = .parked → p.stall = some m → ¬(p.lot = l ∧ m = n) →
    (p.lot = l ∨ ((s.lotAt l).inside < (s.lotAt l).capacity ∧
      (s.lotAt l).heads + p.party ≤ (s.lotAt l).headLimit)) →
    ∃ t, exec (.keyTag .post (lotNumber l) n tag) s = .next t ∧
      t.stallAt p.lot m = { s.stallAt p.lot m with
        state := .free, tag := none, grace := none, draft := none, lampDesired := .off } ∧
      t.stallAt l n = { s.stallAt l n with
        state := .occupied, tag := some tag, grace := none, display := some 10
        lampDesired := lampOf t.orders tag } ∧
      t.passAt tag = some { p with
        state := .parked, lot := l, stall := some n, transit := none, overdue := false } ∧
      (p.lot = l → t.lotAt l = { s.lotAt l with parked := (s.lotAt l).parked - 1 + 1 }) ∧
      (p.lot ≠ l →
        t.lotAt l = { s.lotAt l with
          inside := (s.lotAt l).inside + 1, heads := (s.lotAt l).heads + p.party
          parked := (s.lotAt l).parked + 1 } ∧
        t.lotAt p.lot = { s.lotAt p.lot with
          inside := (s.lotAt p.lot).inside - 1, heads := (s.lotAt p.lot).heads - p.party
          parked := (s.lotAt p.lot).parked - 1 }) ∧
      (∀ k j, ¬(k = l ∧ j = n) → ¬(k = p.lot ∧ j = m) → t.stallAt k j = s.stallAt k j) ∧
      (∀ u, u ≠ tag → t.passAt u = s.passAt u) ∧
      (∀ k, k ≠ l → k ≠ p.lot → t.lotAt k = s.lotAt k) ∧
      (∀ d, t.orderAt d = if (s.stallAt p.lot m).draft = some d then none else s.orderAt d) ∧
      t = { s with stalls := t.stalls, passes := t.passes, lots := t.lots, orders := t.orders }

/-- R17, R18, R19, R186: at the count 0, a transit expiry marks the pass overdue and raises the notice, and a
grace expiry frees the stall, settles its draft and sends the pass IN_TRANSIT with a fresh deadline. That at
any other count neither row changes anything is the model's choice (log entry 4). -/
def Obligations.TransitAndGraceDeadlinesExpire : Prop :=
  (∀ (tag : Nat) (p : PassRec) (s : State), s.passAt tag = some p → p.transit = some 0 →
    exec (.transitExpiry tag) s = .next
      (raiseLot .transitOverdue p.lot (s.setPass tag { p with transit := none, overdue := true }))) ∧
  (∀ (l : Lot) (n tag : Nat) (s : State),
    ((∀ p, s.passAt tag = some p → p.transit ≠ some 0) →
      exec (.transitExpiry tag) s = .next s) ∧
    ((s.stallAt l n).grace ≠ some 0 → exec (.graceExpiry l n) s = .next s)) ∧
  (∀ (l : Lot) (n tag : Nat) (p : PassRec) (s : State),
    (s.stallAt l n).state = .vacated → (s.stallAt l n).grace = some 0 →
    (s.stallAt l n).tag = some tag → s.passAt tag = some p →
    ∃ t, exec (.graceExpiry l n) s = .next t ∧
      t.stallAt l n = { s.stallAt l n with
        state := .free, tag := none, grace := none, draft := none, lampDesired := .off } ∧
      t.passAt tag = some { p with
        state := .inTransit, lane := none, stall := none, transit := some s.transitLimit } ∧
      t.lotAt l = { s.lotAt l with parked := (s.lotAt l).parked - 1 } ∧
      (∀ k, k ≠ l → t.lotAt k = s.lotAt k) ∧
      (∀ k m, ¬(k = l ∧ m = n) → t.stallAt k m = s.stallAt k m) ∧
      (∀ u, u ≠ tag → t.passAt u = s.passAt u) ∧
      (∀ o, t.orderAt o = if (s.stallAt l n).draft = some o then none else s.orderAt o) ∧
      t = { s with stalls := t.stalls, passes := t.passes, lots := t.lots, orders := t.orders }) ∧
  ∀ (k : NoticeKind) (l : Lot) (s : State),
    ((raiseLot k l s).noticeOf k).pending = true ∧
      (∀ i, ((raiseLot k l s).noticeOf k).mask.getLsbD i =
        ((s.noticeOf k).mask.getLsbD i || decide (i = l.val + 1))) ∧
      (∀ j, j ≠ k → (raiseLot k l s).noticeOf j = s.noticeOf j) ∧ (raiseLot k l s).attn = true ∧
      raiseLot k l s = s.setOlp { s.olp with notices := (raiseLot k l s).olp.notices }

/-- R22, R23, R163, R188: while no session close is under way, Retire Pass frees the pass and its stall,
lowers the lot's counters, writes off the tab, frees the pass's DRAFT, HELD and PLACED orders and leaves its
IN_PREP and READY orders UNCLAIMED with the notice. A tag that is not live is answered NO_SUCH. In CLOSING
the retirement of the last pass, when it leaves the order table empty, closes the session with its notice;
while a pass or an order is left the session stays CLOSING. -/
def Obligations.RetirePassReleasesEverythingOfTheCar : Prop :=
  (∀ (q : Byte) (tag : Nat) (s : State), s.passAt tag = none →
    exec (.retirePass q tag) s = .next (giveOffice q (refuse .noSuch) s)) ∧
  (∀ (q : Byte) (tag : Nat) (p : PassRec) (s : State), s.olp.session = .closing →
    s.passAt tag = some p → ∃ t, exec (.retirePass q tag) s = .next t ∧ t.passAt tag = none ∧
      ClosesWithLast tag p s t) ∧
  ∀ (q : Byte) (tag : Nat) (p : PassRec) (s : State), RecordsInForm s → s.olp.session ≠ .closing →
    s.passAt tag = some p → OwnDraft tag p s →
    ∃ t, exec (.retirePass q tag) s = .next t ∧ Retired tag p s t ∧
      t.olp.slot = some { overrun := s.rdy, seq := q, answer := okWith (.values [some p.tab]) } ∧
      t.olp = { s.olp with slot := t.olp.slot, notices := t.olp.notices } ∧
      t = { s with
        olp := t.olp, passes := t.passes, stalls := t.stalls, lots := t.lots, orders := t.orders
        queue := t.queue, held := t.held }

/-! ## The Lane Sequencer -/

/-- R29, R33, R35, R27: ARRIVE takes an IDLE lane to OCCUPIED and else changes nothing; LEFT of an
OCCUPIED lane takes it to IDLE without a barrier command, removing its last refusal, and in IDLE changes
nothing; both are answered OK. At an exit lane in RELEASED, LEFT lowers the barrier and idles the lane. -/
def Obligations.ArriveAndLeftMoveTheLane : Prop :=
  (∀ (q : Byte) (i : Lot) (s : State), exec (.arrive (.office q) (lotNumber i)) s = .next
    (giveOffice q (okWith .none)
      (if (s.laneAt i).state = .idle then s.setLane i { s.laneAt i with state := .occupied } else s))) ∧
  (∀ (q : Byte) (i : Lot) (s : State), (s.laneAt i).state = .idle →
    exec (.left (.office q) (lotNumber i)) s = .next (giveOffice q (okWith .none) s)) ∧
  (∀ (q : Byte) (i : Lot) (s : State), (s.laneAt i).state = .occupied →
    exec (.left (.office q) (lotNumber i)) s = .next (giveOffice q (okWith .none) (s.setLane i
      { s.laneAt i with state := .idle, tag := none, untagged := false, lastRefusal := none }))) ∧
  ∀ (q : Byte) (i : Lot) (s : State), (s.laneAt i).state = .released →
    exec (.left (.office q) (lotNumber i)) s = .next (giveOffice q (okWith .none) (s.setLane i
      { s.laneAt i with
        state := .idle, tag := none, untagged := false, lastRefusal := none, order := .down }))

/-- R30, R31, R36: the seven checks of an ADMIT at an entry lane, and the five of an EXIT at an exit lane,
in order; a refused one writes its code to the lane's last refusal and changes nothing else, and TAB_DUE
answers the tab. -/
def Obligations.LaneChecksRunInOrder : Prop :=
  (∀ (q : Byte) (i : Lot) (lot fee party : Nat) (s : State), i.val < 4 → ∃ why,
    (why ≠ .ok → exec (.admitCar (.office q) (lotNumber i) lot fee party) s = .next
      (giveOffice q (refuse why) (s.setLane i { s.laneAt i with lastRefusal := some why }))) ∧
    (why = .ok ↔ ∃ (t : State) (d : Data),
      exec (.admitCar (.office q) (lotNumber i) lot fee party) s = .next (giveOffice q (okWith d) t)) ∧
    why =
      (if (s.laneAt i).state = .idle then Status.noVehicle
      else if (s.laneAt i).state = .admitted then .badState
      else if s.olp.session ≠ .open then .notOpen
      else match lot? lot with
        | none => .outOfRange
        | some l =>
          if 3 < fee then .outOfRange
          else if (s.lotAt l).capacity ≤ (s.lotAt l).inside then .lotFull
          else if (s.lotAt l).headLimit < (s.lotAt l).heads + max 1 (min party 8) then .headLimit
          else .ok)) ∧
  (∀ (q : Byte) (i : Lot) (tag : Nat) (s : State), 4 ≤ i.val → ∃ why,
    (why ≠ .ok → exec (.exit (.office q) (lotNumber i) tag) s = .next
      (giveOffice q { status := why
                      data := if why = .tabDue then .values [(s.passAt tag).map fun p => p.tab]
                        else .none }
        (s.setLane i { s.laneAt i with lastRefusal := some why }))) ∧
    (why = .ok ↔ ∃ (t : State) (d : Data),
      exec (.exit (.office q) (lotNumber i) tag) s = .next (giveOffice q (okWith d) t)) ∧
    why =
      (if (s.laneAt i).state = .idle then Status.noVehicle
      else if (s.laneAt i).state = .released then .badState
      else match s.passAt tag with
        | none => .noSuch
        | some p =>
          if p.state = .inLane then .badState
          else if p.tab ≠ 0 ∧ (s.lotAt p.lot).policy ≠ .open then .tabDue
          else .ok))

/-- R31, R3, R190: an ADMIT that passes every check issues the next tag, creates the pass IN_LANE, counts it
in inside and heads, writes the lane tag, raises the barrier and answers tag, lot, fee class, clamped party
size and admission time; the tag sequence moves to the step after the tag issued, and nothing else changes.
The next tag is the first from the sequence's own on, stepping from 9,999 to 1, that is not live, whenever
at most 2,304 passes are live. -/
def Obligations.AdmitCreatesThePass : Prop :=
  (∀ (q : Byte) (i l : Lot) (fee party tag : Nat) (f : FeeClass) (s : State), i.val < 4 →
    (s.laneAt i).state = .occupied → s.olp.session = .open → feeClass? fee = some f →
    (s.lotAt l).inside < (s.lotAt l).capacity →
    (s.lotAt l).heads + max 1 (min party 8) ≤ (s.lotAt l).headLimit →
    s.passes.length ≤ 2304 → 1 ≤ s.olp.tagSeq → s.olp.tagSeq ≤ 9999 → nextTag s = tag →
    ∃ t, exec (.admitCar (.office q) (lotNumber i) (lotNumber l) fee party) s = .next t ∧
      s.passAt tag = none ∧
      t.passAt tag = some
        { state := .inLane, lot := l, fee := f, party := max 1 (min party 8),
          lane := some (lotNumber i), stall := none, admitTime := s.olp.clock, transit := none,
          overdue := false, tab := 0 } ∧
      (∀ u, u ≠ tag → t.passAt u = s.passAt u) ∧
      t.lotAt l = { s.lotAt l with
        inside := (s.lotAt l).inside + 1, heads := (s.lotAt l).heads + max 1 (min party 8) } ∧
      (∀ k, k ≠ l → t.lotAt k = s.lotAt k) ∧
      t.laneAt i = { s.laneAt i with state := .admitted, tag := some tag, order := .up } ∧
      (∀ k, k ≠ i → t.laneAt k = s.laneAt k) ∧
      t.olp = { s.olp with
        tagSeq := if tag = 9999 then 1 else tag + 1
        slot := some { overrun := s.rdy, seq := q,
                       answer := okWith (.admitted tag l f (max 1 (min party 8)) s.olp.clock) } } ∧
      t = { s with olp := t.olp, passes := t.passes, lots := t.lots, lanes := t.lanes }) ∧
  (∀ s : State, s.passes.length ≤ 2304 → 1 ≤ s.olp.tagSeq → s.olp.tagSeq ≤ 9999 →
    1 ≤ nextTag s ∧ nextTag s ≤ 9999 ∧ s.passAt (nextTag s) = none ∧
    (s.passAt s.olp.tagSeq = none → nextTag s = s.olp.tagSeq) ∧
    ∃ k, nextTag s = (fun n => if n < 9999 then n + 1 else 1)^[k] s.olp.tagSeq ∧
      ∀ j < k, s.passAt ((fun n => if n < 9999 then n + 1 else 1)^[j] s.olp.tagSeq) ≠ none)

/-- R32, R33, R4, R22, R188: at an ADMITTED entry lane, PASSED moves the pass of this lane IN_TRANSIT and
counts its fee class; LEFT retires it, with any orders it has, and as the last pass of a CLOSING session
closes it; when that pass is gone both find "no pass". The lane is idled with its barrier DOWN in every
case; PASSED in another state is refused BAD_STATE. -/
def Obligations.PassedAndBackoutEndTheAdmission : Prop :=
  (∀ (q : Byte) (i : Lot) (tag : Nat) (p : PassRec) (s : State), i.val < 4 →
    (s.laneAt i).state = .admitted → (s.laneAt i).tag = some tag → s.passAt tag = some p →
    p.state = .inLane → p.lane = some (lotNumber i) →
    ∃ t, exec (.passed (.office q) (lotNumber i)) s = .next t ∧
      t.passAt tag = some { p with
        state := .inTransit, lane := none, stall := none, transit := some s.transitLimit } ∧
      (∀ u, u ≠ tag → t.passAt u = s.passAt u) ∧
      t.lotAt p.lot = { s.lotAt p.lot with
        admittedCar := if p.fee = .car then min ((s.lotAt p.lot).admittedCar + 1) 65535
          else (s.lotAt p.lot).admittedCar
        admittedVan := if p.fee = .van then min ((s.lotAt p.lot).admittedVan + 1) 65535
          else (s.lotAt p.lot).admittedVan
        admittedPassholder := if p.fee = .passholder
          then min ((s.lotAt p.lot).admittedPassholder + 1) 65535
          else (s.lotAt p.lot).admittedPassholder
        admittedComp := if p.fee = .comp then min ((s.lotAt p.lot).admittedComp + 1) 65535
          else (s.lotAt p.lot).admittedComp } ∧
      (∀ k, k ≠ p.lot → t.lotAt k = s.lotAt k) ∧
      t.laneAt i = { s.laneAt i with
        state := .idle, tag := none, untagged := false, lastRefusal := none, order := .down } ∧
      (∀ k, k ≠ i → t.laneAt k = s.laneAt k) ∧
      t.olp = { s.olp with slot := some { overrun := s.rdy, seq := q,
                                          answer := okWith (.values [some tag, some 1]) } } ∧
      t = { s with olp := t.olp, passes := t.passes, lots := t.lots, lanes := t.lanes }) ∧
  (∀ (q : Byte) (i : Lot) (tag : Nat) (p : PassRec) (s : State), i.val < 4 →
    (s.laneAt i).state = .admitted → (s.laneAt i).tag = some tag → s.passAt tag = some p →
    p.state = .inLane → p.lane = some (lotNumber i) →
    ∃ t, exec (.left (.office q) (lotNumber i)) s = .next t ∧ t.passAt tag = none ∧
      t.laneAt i = { s.laneAt i with
        state := .idle, tag := none, untagged := false, lastRefusal := none, order := .down } ∧
      (∀ k, k ≠ i → t.laneAt k = s.laneAt k) ∧
      t.olp.slot = some { overrun := s.rdy, seq := q, answer := okWith (.values [some tag, some 1]) } ∧
      (s.olp.session = .closing → ClosesWithLast tag p s t) ∧
      (s.olp.session ≠ .closing → RecordsInForm s → Retired tag p s t ∧
        t.olp = { s.olp with slot := t.olp.slot, notices := t.olp.notices } ∧
        t = { s with
          olp := t.olp, passes := t.passes, stalls := t.stalls, lots := t.lots, lanes := t.lanes
          orders := t.orders, queue := t.queue, held := t.held })) ∧
  (∀ (q : Byte) (i : Lot) (tag : Nat) (s : State), i.val < 4 → (s.laneAt i).state = .admitted →
    (s.laneAt i).tag = some tag →
    (∀ p, s.passAt tag = some p → p.state ≠ .inLane ∨ p.lane ≠ some (lotNumber i)) →
    ∀ c ∈ ([.passed (.office q) (lotNumber i), .left (.office q) (lotNumber i)] : List Instr),
      exec c s = .next (giveOffice q (okWith (.values [some tag, some 0])) (s.setLane i
        { s.laneAt i with
          state := .idle, tag := none, untagged := false, lastRefusal := none, order := .down }))) ∧
  ∀ (q : Byte) (i : Lot) (s : State), i.val < 4 → (s.laneAt i).state ≠ .admitted →
    exec (.passed (.office q) (lotNumber i)) s = .next (giveOffice q (refuse .badState)
      (s.setLane i { s.laneAt i with lastRefusal := some .badState }))

/-- R37, R22, R188, R39, R40: a taken EXIT counts the exit, retires the pass, IN_TRANSIT or PARKED and
with any orders it has, writes the lane tag, raises the barrier and answers tag, lot and tab written off;
in CLOSING the last exit closes the session.
EXIT_PASSED idles a RELEASED exit lane with its barrier DOWN and else is refused; Exit Untagged counts
the car and releases an IDLE or OCCUPIED exit lane, and is refused in RELEASED, on entry lanes and on
lanes outside 1 to 6. -/
def Obligations.ExitsReleaseTheLane : Prop :=
  (∀ (q : Byte) (i : Lot) (tag : Nat) (p : PassRec) (s : State), 4 ≤ i.val →
    (s.laneAt i).state = .occupied → s.passAt tag = some p → p.state ≠ .inLane →
    (p.tab = 0 ∨ (s.lotAt p.lot).policy = .open) →
    ∃ t, exec (.exit (.office q) (lotNumber i) tag) s = .next t ∧ t.passAt tag = none ∧
      t.laneAt i = { s.laneAt i with state := .released, tag := some tag, order := .up } ∧
      (∀ k, k ≠ i → t.laneAt k = s.laneAt k) ∧
      t.olp.slot = some { overrun := s.rdy, seq := q,
                          answer := okWith (.values [some tag, some (lotNumber p.lot), some p.tab]) } ∧
      (s.olp.session = .closing → ClosesWithLast tag p s t) ∧
      (s.olp.session ≠ .closing → RecordsInForm s → OwnDraft tag p s →
        Retired tag p (s.setLot p.lot { s.lotAt p.lot with
          exits := min ((s.lotAt p.lot).exits + 1) 65535 }) t ∧
        t.olp = { s.olp with slot := t.olp.slot, notices := t.olp.notices } ∧
        t = { s with
          olp := t.olp, passes := t.passes, stalls := t.stalls, lots := t.lots, lanes := t.lanes
          orders := t.orders, queue := t.queue, held := t.held })) ∧
  ((∀ (q : Byte) (i : Lot) (s : State), 4 ≤ i.val →
    exec (.exitPassed (.office q) (lotNumber i)) s = .next
      (if (s.laneAt i).state = .released then giveOffice q (okWith .none) (s.setLane i
        { s.laneAt i with
          state := .idle, tag := none, untagged := false, lastRefusal := none, order := .down })
      else giveOffice q (refuse .badState)
        (s.setLane i { s.laneAt i with lastRefusal := some .badState })) ∧
    exec (.exitUntagged q (lotNumber i)) s = .next
      (if (s.laneAt i).state = .released then giveOffice q (refuse .badState)
        (s.setLane i { s.laneAt i with lastRefusal := some .badState })
      else giveOffice q (okWith .none) ({ s with untagged := min (s.untagged + 1) 65535 }.setLane i
        { s.laneAt i with state := .released, untagged := true, tag := none, order := .up }))) ∧
  (∀ (q : Byte) (lane : Nat) (tag : Nat) (s : State), lane < 5 ∨ 6 < lane →
    ∀ c ∈ ([.exit (.office q) lane tag, .exitPassed (.office q) lane, .exitUntagged q lane] :
      List Instr), exec c s = .next (giveOffice q (refuse .outOfRange) s)) ∧
  ∀ (q : Byte) (lane lot fee party : Nat) (s : State), lane = 0 ∨ 4 < lane →
    ∀ c ∈ ([.admitCar (.office q) lane lot fee party, .passed (.office q) lane] : List Instr),
      exec c s = .next (giveOffice q (refuse .outOfRange) s))

/-! ## The Loop Master -/

/-- R45: Set Fitted with the setting clear resets the unit's record and clears the mirror of its online
flag, leaving the stall, lane or station otherwise as it was; with the setting set the unit starts
offline; a unit already in the setting is answered OK with no change; a unit that is not one is refused. -/
def Obligations.SetFittedResetsTheUnit : Prop :=
  (∀ (q : Byte) (n : LoopId) (a : Nat) (b : Bool) (s : State), 1 ≤ a → a ≤ maxAddress n →
    (s.unitAt n a).fitted = b →
    exec (.setFitted q n.val a b) s = .next (giveOffice q (okWith .none) s)) ∧
  (∀ (q : Byte) (n : LoopId) (a : Nat) (s : State), 1 ≤ a → a ≤ maxAddress n →
    (s.unitAt n a).fitted = true → ∃ t, exec (.setFitted q n.val a false) s = .next t ∧
      t.unitAt n a = { fitted := false, online := false, miss := 0, accepted := none,
                       ackOwed := none, carried := none, pending := none, lastOutcome := .taken } ∧
      (∀ m c, ¬(m = n ∧ c = a) → t.unitAt m c = s.unitAt m c) ∧
      (∀ m, t.loopAt m = { s.loopAt m with units := (t.loopAt m).units }) ∧
      (∀ l k, t.stallAt l k = if stallBehind n a = some (l, k) then
        { s.stallAt l k with online := false } else s.stallAt l k) ∧
      (∀ k : Fin 4, t.stationAt k = if n.val = 12 ∧ a = k.val + 7 then
        { s.stationAt k with online := false } else s.stationAt k) ∧
      t.olp = { s.olp with
        slot := some { overrun := s.rdy, seq := q, answer := okWith .none } } ∧
      t = { s with olp := t.olp, stalls := t.stalls, stations := t.stations, loops := t.loops }) ∧
  (∀ (q : Byte) (n : LoopId) (a : Nat) (s : State), 1 ≤ a → a ≤ maxAddress n →
    (s.unitAt n a).fitted = false →
    exec (.setFitted q n.val a true) s = .next (giveOffice q (okWith .none) (s.setUnit n a
      { fitted := true, online := false, miss := 0, accepted := none, ackOwed := none,
        carried := none, pending := none, lastOutcome := .taken }))) ∧
  ∀ (q : Byte) (n a : Nat) (b : Bool) (s : State),
    12 < n ∨ a = 0 ∨ (n < 12 ∧ 192 < a) ∨ (n = 12 ∧ 11 < a) →
    exec (.setFitted q n a b) s = .next (giveOffice q (refuse .outOfRange) s)

/-- R46, R47, R56, R59, R63: a sweep steps the count on, the first after reset leaving it, and sends a
waiting general call; a poll goes to the next due unit in address order, carries its ack owed, its item and,
to a lane terminal whose arm differs from it, the barrier order, and opens the reply window; while a reply
is awaited neither is sent. When a step is due, and that the sweep position keeps the last unit polled until
SWEEP_START empties it, is the model's choice (log entry 5). -/
def Obligations.SweepsPollTheDueUnits : Prop :=
  (∀ (n : LoopId) (s : State), (s.loopAt n).window = false →
    ((s.loopAt n).begun = true → ∀ b, (s.loopAt n).pos.getD 0 < b → b ≤ maxAddress n →
      (s.unitAt n b).fitted = false ∨ ((s.unitAt n b).online = false ∧ (s.loopAt n).count ≠ 0)) →
    exec (.sweepStart n) s = .next (s.setLoop n { s.loopAt n with
      count := if (s.loopAt n).begun then ((s.loopAt n).count + 1) % 8 else (s.loopAt n).count
      begun := true, pos := none, callSlot := none
      sent := if (s.loopAt n).callSlot = none then (s.loopAt n).sent
        else (s.loopAt n).callSlot.map LoopFrame.generalCall })) ∧
  (∀ (n : LoopId) (a : Nat) (s : State), (s.loopAt n).window = false →
    (s.loopAt n).begun = true ∨ (s.loopAt n).callSlot = none →
    (s.loopAt n).pos.getD 0 < a → a ≤ maxAddress n → (s.unitAt n a).fitted = true →
    ((s.unitAt n a).online = true ∨ (s.loopAt n).count = 0) →
    (∀ b, (s.loopAt n).pos.getD 0 < b → b < a → (s.unitAt n b).fitted = false ∨
      ((s.unitAt n b).online = false ∧ (s.loopAt n).count ≠ 0)) →
    ∃ t item arm, exec (.poll n) s = .next t ∧
      (∀ l k, stallBehind n a = some (l, k) → item = (match (s.stallAt l k).display with
        | some code => some (Item.display code)
        | none => if (s.stallAt l k).lampDesired = (s.stallAt l k).lampReported then none
          else some (Item.lamp (s.stallAt l k).lampDesired))) ∧
      (stallBehind n a = none → item = (s.unitAt n a).pending.map Item.response) ∧
      (∀ i : Lot, n = 12 → a = i.val + 1 →
        arm = if (s.laneAt i).order = (s.laneAt i).reported then none
          else some (s.laneAt i).order) ∧
      (n ≠ 12 ∨ 6 < a → arm = none) ∧
      t.loopAt n = { s.loopAt n with
        pos := some a, begun := true, window := true, units := (t.loopAt n).units
        sent := some (.poll a (s.unitAt n a).ackOwed item arm) } ∧
      t.unitAt n a = { s.unitAt n a with
        ackOwed := none
        carried := match item with
          | some (.display code) => some code
          | _ => none } ∧
      (∀ c, c ≠ a → t.unitAt n c = s.unitAt n c) ∧ (∀ m, m ≠ n → t.loopAt m = s.loopAt m) ∧
      t = { s with loops := t.loops }) ∧
  ∀ (n : LoopId) (s : State), (s.loopAt n).window = true →
    exec (.poll n) s = .next s ∧ exec (.sweepStart n) s = .next s

/-- R48, R50, R51, R52, R57, R58: an idle reply of an online unit, and a repeated report, act on nothing: the
miss count is cleared, the reported states are written, and a repeat is acknowledged again. A new report of
a stall post is accepted and handed to its owner for the post's own stall, whatever its kind; one outside
the post's class is only accepted. The restart mark clears the accepted toggle, the acknowledgement owed, the
display carried and the pending response before the rest is read, here in a unit table that stands in its
one canonical form, as every step keeps it (StepKeepsRecordsInForm). A frame in the window with a wrong check
or another address is a missed reply, which ends the wait (log entry 30); after the window it changes
nothing. -/
def Obligations.RepliesAreTakenOnce : Prop :=
  (∀ (n : LoopId) (l : Lot) (k a : Nat) (r : LoopReply) (s : State),
    isReply (s.loopAt n) r = true → r.address = a → r.restart = false →
    (s.unitAt n a).fitted = true → (s.unitAt n a).online = true → stallBehind n a = some (l, k) →
    (r.report = none ∨ ∃ rep, r.report = some rep ∧ (s.unitAt n a).accepted = some rep.toggle) →
    ∃ t, exec (.loopReply n r) s = .next t ∧
      t.stallAt l k = { s.stallAt l k with
        lampReported := r.lamp
        display := if (s.unitAt n a).carried ≠ none ∧
          (s.unitAt n a).carried = (s.stallAt l k).display then none else (s.stallAt l k).display } ∧
      t.unitAt n a = { s.unitAt n a with
        miss := 0, carried := none
        ackOwed := match r.report with
          | none => (s.unitAt n a).ackOwed
          | some rep => some { toggle := rep.toggle, outcome := (s.unitAt n a).lastOutcome } } ∧
      t.loopAt n = { s.loopAt n with window := false, units := (t.loopAt n).units } ∧
      (∀ c, c ≠ a → t.unitAt n c = s.unitAt n c) ∧ (∀ m, m ≠ n → t.loopAt m = s.loopAt m) ∧
      (∀ j m, ¬(j = l ∧ m = k) → t.stallAt j m = s.stallAt j m) ∧
      t = { s with loops := t.loops, stalls := t.stalls }) ∧
  (∀ (n : LoopId) (l : Lot) (k a : Nat) (r : LoopReply) (s : State) (rep : ReplyReport),
    isReply (s.loopAt n) r = true → r.address = a → r.restart = false →
    (s.unitAt n a).fitted = true → stallBehind n a = some (l, k) →
    r.report = some rep → (s.unitAt n a).accepted ≠ some rep.toggle →
    1 ≤ k → k ≤ 384 → ∃ u v, exec (.loopReply n { r with report := none }) s = .next u ∧
      v = u.setUnit n a { u.unitAt n a with
        accepted := some rep.toggle, ackOwed := some { toggle := rep.toggle, outcome := .taken }
        lastOutcome := .taken } ∧
      (∀ c, postCommand l k rep.body = some c →
        ∃ t, exec c v = .next t ∧ exec (.loopReply n r) s = .next t) ∧
      (postCommand l k rep.body = none → exec (.loopReply n r) s = .next v)) ∧
  (∀ (n : LoopId) (r : LoopReply) (s : State), Table.wf UnitRec.fresh (s.loopAt n).units = true →
    isReply (s.loopAt n) r = true → r.restart = true → (s.unitAt n r.address).fitted = true →
    ∃ t, exec (.loopReply n { r with restart := false }) (s.setUnit n r.address
        { s.unitAt n r.address with
          accepted := none, ackOwed := none, carried := none, pending := none }) = .next t ∧
      exec (.loopReply n r) s = .next t) ∧
  (∀ (n : LoopId) (r : LoopReply) (s : State), (s.loopAt n).window = false →
    exec (.loopReply n r) s = .next s) ∧
  ∀ (n : LoopId) (r : LoopReply) (s : State), (s.loopAt n).window = true →
    (r.checkRight = false ∨ (s.loopAt n).pos ≠ some r.address) →
    ∃ t, exec (.replyWindowExpiry n) s = .next t ∧ exec (.loopReply n r) s = .next t

/-- R50, R51, R60, R61, R62: a service unit's new request (lane terminal, kitchen station or handheld bridge)
is accepted BUSY while a response still waits, and changes nothing else; else it is accepted TAKEN and
taken as the command of its kind, or refused NOT_PERMITTED outside the unit's class, the answer standing in
the pending response slot; a repeat is only acknowledged again; the response-held mark empties the slot
first. A lane terminal's own record and lane are shown field by field. That the bridge answers a request
outside its class NOT_PERMITTED whatever its handheld number is the model's reading (log entry 16). -/
def Obligations.ServiceRequestsUseTheResponseSlot : Prop :=
  (∀ (i : Lot) (r : LoopReply) (rep : ReplyReport) (s : State),
    isReply (s.loopAt 12) r = true → r.address = lotNumber i → r.restart = false →
    (s.unitAt 12 (lotNumber i)).fitted = true → (s.unitAt 12 (lotNumber i)).online = true →
    r.report = some rep → (s.unitAt 12 (lotNumber i)).accepted ≠ some rep.toggle →
    (∃ x, (s.unitAt 12 (lotNumber i)).pending = some x ∧ r.held ≠ some x.toggle) →
    ∃ t, exec (.loopReply 12 r) s = .next t ∧
      t.unitAt 12 (lotNumber i) = { s.unitAt 12 (lotNumber i) with
        miss := 0, accepted := some rep.toggle, lastOutcome := .busy
        ackOwed := some { toggle := rep.toggle, outcome := .busy } } ∧
      t.laneAt i = { s.laneAt i with reported := r.arm } ∧
      (∀ k, k ≠ i → t.laneAt k = s.laneAt k) ∧
      (∀ c, c ≠ lotNumber i → t.unitAt 12 c = s.unitAt 12 c) ∧
      t.loopAt 12 = { s.loopAt 12 with window := false, units := (t.loopAt 12).units } ∧
      (∀ m, m ≠ 12 → t.loopAt m = s.loopAt m) ∧ t = { s with loops := t.loops, lanes := t.lanes }) ∧
  (∀ (i : Lot) (r : LoopReply) (rep : ReplyReport) (s : State),
    isReply (s.loopAt 12) r = true → r.address = lotNumber i → r.restart = false →
    (s.unitAt 12 (lotNumber i)).fitted = true → (s.unitAt 12 (lotNumber i)).online = true →
    r.report = some rep → (s.unitAt 12 (lotNumber i)).accepted ≠ some rep.toggle →
    (∀ x, (s.unitAt 12 (lotNumber i)).pending = some x → r.held = some x.toggle) →
    (rep.body = .take ∨ (i.val < 4 ∧ rep.body = .exitPassed) ∨ ∃ k, rep.body = .unknown k) →
    ∃ t, exec (.loopReply 12 r) s = .next t ∧
      t.unitAt 12 (lotNumber i) = { s.unitAt 12 (lotNumber i) with
        miss := 0, accepted := some rep.toggle, lastOutcome := .taken
        ackOwed := some { toggle := rep.toggle, outcome := .taken }
        pending := some { toggle := rep.toggle, handheld := none, answer := refuse .notPermitted } } ∧
      t.laneAt i = { s.laneAt i with reported := r.arm } ∧
      (∀ k, k ≠ i → t.laneAt k = s.laneAt k) ∧
      (∀ c, c ≠ lotNumber i → t.unitAt 12 c = s.unitAt 12 c) ∧
      t.loopAt 12 = { s.loopAt 12 with window := false, units := (t.loopAt 12).units } ∧
      (∀ m, m ≠ 12 → t.loopAt m = s.loopAt m) ∧ t = { s with loops := t.loops, lanes := t.lanes }) ∧
  (∀ (i : Lot) (b : Bool) (s : State), (s.unitAt 12 (lotNumber i)).pending = none →
    (s.laneAt i).state = .idle → ∃ t, exec (.arrive (.terminal b) (lotNumber i)) s = .next t ∧
      t.laneAt i = { s.laneAt i with state := .occupied } ∧
      t.unitAt 12 (lotNumber i) = { s.unitAt 12 (lotNumber i) with
        pending := some { toggle := b, handheld := none, answer := okWith .none } } ∧
      (∀ c, c ≠ lotNumber i → t.unitAt 12 c = s.unitAt 12 c) ∧
      (∀ k, k ≠ i → t.laneAt k = s.laneAt k) ∧ t = { s with loops := t.loops, lanes := t.lanes }) ∧
  ∀ (a : Nat) (r : LoopReply) (rep : ReplyReport) (s : State), 1 ≤ a → a ≤ 11 →
    isReply (s.loopAt 12) r = true → r.address = a → (s.unitAt 12 a).fitted = true →
    r.report = some rep → ∃ u, exec (.loopReply 12 { r with report := none }) s = .next u ∧
      ((u.unitAt 12 a).accepted = some rep.toggle →
        exec (.loopReply 12 r) s = .next (u.setUnit 12 a { u.unitAt 12 a with
          ackOwed := some { toggle := rep.toggle, outcome := (u.unitAt 12 a).lastOutcome } })) ∧
      ((u.unitAt 12 a).accepted ≠ some rep.toggle → (u.unitAt 12 a).pending ≠ none →
        exec (.loopReply 12 r) s = .next (u.setUnit 12 a { u.unitAt 12 a with
          accepted := some rep.toggle, ackOwed := some { toggle := rep.toggle, outcome := .busy }
          lastOutcome := .busy })) ∧
      ((u.unitAt 12 a).accepted ≠ some rep.toggle → (u.unitAt 12 a).pending = none →
        ∃ v, v = u.setUnit 12 a { u.unitAt 12 a with
            accepted := some rep.toggle, ackOwed := some { toggle := rep.toggle, outcome := .taken }
            lastOutcome := .taken } ∧
          (∀ c, serviceCommand a rep = some c →
            ∃ t, exec c v = .next t ∧ exec (.loopReply 12 r) s = .next t) ∧
          (serviceCommand a rep = none → exec (.loopReply 12 r) s = .next
            (slotted a rep.toggle (if a = 11 then some rep.handheld else none)
              (refuse .notPermitted) v)))

/-- R53, R54, R48, R44: the third missed reply in a row takes a unit offline with its mirror and notice
(POST_OFFLINE, or STATION_OFFLINE for a service unit), an earlier one only counts; a unit's first reply
brings it online with its mirror and notice; a late frame is discarded. That a miss of a unit already
offline leaves its count at 3 is the model's reading (log entry 28). -/
def Obligations.MissesAndRepliesMoveTheLink : Prop :=
  (∀ (n : LoopId) (a : Nat) (s : State), (s.loopAt n).window = true → (s.loopAt n).pos = some a →
    (s.unitAt n a).fitted = true → (s.unitAt n a).online = true → (s.unitAt n a).miss < 2 →
    ∃ t, exec (.replyWindowExpiry n) s = .next t ∧
      t.unitAt n a = { s.unitAt n a with miss := (s.unitAt n a).miss + 1 } ∧
      t.loopAt n = { s.loopAt n with window := false, units := (t.loopAt n).units } ∧
      (∀ c, c ≠ a → t.unitAt n c = s.unitAt n c) ∧
      (∀ m, m ≠ n → t.loopAt m = s.loopAt m) ∧ t = { s with loops := t.loops }) ∧
  (∀ (n : LoopId) (l : Lot) (k a : Nat) (s : State), (s.loopAt n).window = true →
    (s.loopAt n).pos = some a → (s.unitAt n a).fitted = true → (s.unitAt n a).online = true →
    (s.unitAt n a).miss = 2 → stallBehind n a = some (l, k) →
    ∃ t, exec (.replyWindowExpiry n) s = .next t ∧
      t.unitAt n a = { s.unitAt n a with online := false, miss := 3 } ∧
      t.stallAt l k = { s.stallAt l k with online := false } ∧
      t.loopAt n = { s.loopAt n with window := false, units := (t.loopAt n).units } ∧
      t.olp = (raiseLot .postOffline l s).olp ∧
      (∀ c, c ≠ a → t.unitAt n c = s.unitAt n c) ∧ (∀ m, m ≠ n → t.loopAt m = s.loopAt m) ∧
      (∀ j m, ¬(j = l ∧ m = k) → t.stallAt j m = s.stallAt j m) ∧
      t = { s with olp := t.olp, loops := t.loops, stalls := t.stalls }) ∧
  (∀ (n : LoopId) (l : Lot) (k a : Nat) (r : LoopReply) (s : State),
    isReply (s.loopAt n) r = true → r.address = a → r.restart = false → r.report = none →
    (s.unitAt n a).fitted = true → (s.unitAt n a).online = false → stallBehind n a = some (l, k) →
    ∃ t, exec (.loopReply n r) s = .next t ∧
      t.unitAt n a = { s.unitAt n a with online := true, miss := 0, carried := none } ∧
      t.stallAt l k = { s.stallAt l k with
        online := true, lampReported := r.lamp
        display := if (s.unitAt n a).carried ≠ none ∧
          (s.unitAt n a).carried = (s.stallAt l k).display then none else (s.stallAt l k).display } ∧
      t.olp = (raiseLot .postOnline l s).olp ∧
      t.loopAt n = { s.loopAt n with window := false, units := (t.loopAt n).units } ∧
      (∀ c, c ≠ a → t.unitAt n c = s.unitAt n c) ∧ (∀ m, m ≠ n → t.loopAt m = s.loopAt m) ∧
      (∀ j m, ¬(j = l ∧ m = k) → t.stallAt j m = s.stallAt j m) ∧
      t = { s with olp := t.olp, loops := t.loops, stalls := t.stalls }) ∧
  (∀ (a : Nat) (s : State), (s.loopAt 12).window = true → (s.loopAt 12).pos = some a →
    (s.unitAt 12 a).fitted = true → (s.unitAt 12 a).online = true → (s.unitAt 12 a).miss = 2 →
    ∃ t, exec (.replyWindowExpiry 12) s = .next t ∧
      t.unitAt 12 a = { s.unitAt 12 a with online := false, miss := 3 } ∧
      (∀ k : Fin 4, t.stationAt k =
        if a = k.val + 7 then { s.stationAt k with online := false } else s.stationAt k) ∧
      t.loopAt 12 = { s.loopAt 12 with window := false, units := (t.loopAt 12).units } ∧
      t.olp = (raiseSite .stationOffline s).olp ∧
      (∀ c, c ≠ a → t.unitAt 12 c = s.unitAt 12 c) ∧ (∀ m, m ≠ 12 → t.loopAt m = s.loopAt m) ∧
      t = { s with olp := t.olp, loops := t.loops, stations := t.stations }) ∧
  (∀ (a : Nat) (r : LoopReply) (s : State), 1 ≤ a → a ≤ 11 →
    isReply (s.loopAt 12) r = true → r.address = a → r.restart = false → r.report = none →
    (s.unitAt 12 a).fitted = true →
    ∃ t, exec (.loopReply 12 r) s = .next t ∧
      t.unitAt 12 a = { s.unitAt 12 a with
        online := true, miss := 0
        pending := match (s.unitAt 12 a).pending with
          | some x => if r.held = some x.toggle then none else some x
          | none => none } ∧
      (∀ k : Fin 4, t.stationAt k = if a = k.val + 7 ∧ (s.unitAt 12 a).online = false then
        { s.stationAt k with online := true } else s.stationAt k) ∧
      (∀ i : Lot, t.laneAt i =
        if a = i.val + 1 then { s.laneAt i with reported := r.arm } else s.laneAt i) ∧
      t.olp = (if (s.unitAt 12 a).online = true then s.olp else (raiseSite .postOnline s).olp) ∧
      t.loopAt 12 = { s.loopAt 12 with window := false, units := (t.loopAt 12).units } ∧
      (∀ c, c ≠ a → t.unitAt 12 c = s.unitAt 12 c) ∧ (∀ m, m ≠ 12 → t.loopAt m = s.loopAt m) ∧
      t = { s with olp := t.olp, loops := t.loops, stations := t.stations, lanes := t.lanes }) ∧
  (∀ (n : LoopId) (a : Nat) (s : State), (s.loopAt n).window = true → (s.loopAt n).pos = some a →
    (s.unitAt n a).fitted = true → (s.unitAt n a).online = false →
    ∃ t, exec (.replyWindowExpiry n) s = .next t ∧
      t.unitAt n a = { s.unitAt n a with miss := 3 } ∧
      t.loopAt n = { s.loopAt n with window := false, units := (t.loopAt n).units } ∧
      (∀ c, c ≠ a → t.unitAt n c = s.unitAt n c) ∧
      (∀ m, m ≠ n → t.loopAt m = s.loopAt m) ∧ t = { s with loops := t.loops }) ∧
  ∀ (n : LoopId) (s : State), exec (.loopLateFrameDiscarded n) s = .next s

/-! ## The Programme Store -/

/-- R66: an entry that arrives is prepared by its kind: the fields its kind does not use are dropped, a
label of 0 or above 999 or a missing field is refused, a duration is clamped and a level word normalised. An
entry whose word is lost by it (R118) is stored with true zero, and LOSS is added to the lot's conditions
outside an evaluation, with LEVEL_ALERT when it is new and enabled (R133). What a level word outside its
fields does is log entry 27. -/
def Obligations.EntriesArePreparedByKind : Prop :=
  (∀ (n : Nat) (w : LevelWord) (d : Option Nat), 1 ≤ n → n ≤ 999 → w.e ≤ 7 → 2048 ≤ w.m →
    w.m ≤ 8191 →
    prepareEntry { kind := 0, label := some n, level := some w, duration := d } =
      some (.reel n w, false) ∧
    prepareEntry { kind := 1, label := some n, level := some w, duration := d } =
      some (.snipe n w, false)) ∧
  (∀ (n e : Nat) (d : Option Nat), 1 ≤ n → n ≤ 999 → e ≤ 7 →
    prepareEntry { kind := 0, label := some n, level := some ⟨e, 0⟩, duration := d } =
      some (.reel n ⟨0, 0⟩, false)) ∧
  (∀ (v : Nat) (n : Option Nat) (w : Option LevelWord),
    prepareEntry { kind := 2, label := n, level := w, duration := some v } =
      some (.intermission (max 60 (min v 1800)), false)) ∧
  (∀ (n : Option Nat) (w : Option LevelWord) (d : Option Nat),
    prepareEntry { kind := 3, label := n, level := w, duration := d } = some (.finish, false)) ∧
  (∀ (q : Byte) (l : Lot) (p n : Nat) (w : LevelWord) (d : Option Nat) (s : State), w.e ≤ 7 →
    0 < levelValue w → levelValue w < 2048 → 1 ≤ n → n ≤ 999 →
    prepareEntry { kind := 0, label := some n, level := some w, duration := d } =
      some (.reel n ⟨0, 0⟩, true) ∧
    (editVerdict (s.programmeAt l) (s.boothAt l) p
        (some ((s.programmeAt l).set (p - 1) (.reel n ⟨0, 0⟩))) = .ok →
      ∃ t, exec (.editSegment q (lotNumber l) p
          { kind := 0, label := some n, level := some w, duration := d }) s =
          .next (giveOffice q (okWith (.segment (.reel n ⟨0, 0⟩) none)) t) ∧
        t.programmeAt l = (s.programmeAt l).set (p - 1) (.reel n ⟨0, 0⟩) ∧
        t.channelAt l = { s.channelAt l with
          conds := (s.channelAt l).conds.union (Conds.single .LOSS) } ∧
        (t.noticeOf .levelAlert).mask.getLsbD (l.val + 1) =
          ((s.noticeOf .levelAlert).mask.getLsbD (l.val + 1) ||
            (!(s.channelAt l).conds.hasLoss && (s.channelAt l).mask.hasLoss)) ∧
        t.boothAt l = s.boothAt l ∧ NoticesOf s t ∧ OnlyShow l s t)) ∧
  ∀ e : EntryParam, (3 < e.kind ∨ (e.kind ≤ 1 ∧ (e.label = none ∨ e.level = none)) ∨
    (e.kind ≤ 1 ∧ ∃ n, e.label = some n ∧ (n = 0 ∨ 999 < n)) ∨ (e.kind = 2 ∧ e.duration = none)) →
    prepareEntry e = none

/-- R68, R67, R81: Load Programme is taken at a DARK or ENDED booth whose projectors hold no entry, with a
well-formed list; it stores the list in order, takes the booth to READY without a current position, and
derives the window; a TAILING or SPENT projector loses its position. An entry whose level word is lost adds LOSS to the
lot's conditions, with LEVEL_ALERT when it is new and enabled. A load that removes a current position, as
that of an ENDED booth does, hands SILENT with cause SOURCE, on a line that is UP with room or DOWN. Each
check that fails is answered and changes nothing. -/
def Obligations.LoadStoresAWellFormedList : Prop :=
  (∀ (q : Byte) (l : Lot) (entries : List EntryParam) (s : State),
    ((s.boothAt l).state ≠ .dark ∧ (s.boothAt l).state ≠ .ended) ∨
      (∃ p, (projOf (s.boothAt l) p).state = .threaded ∨ (projOf (s.boothAt l) p).state = .starting ∨
        (projOf (s.boothAt l) p).state = .atSpeed) →
    exec (.loadProgramme q (lotNumber l) entries) s = .next (giveOffice q (refuse .badState) s)) ∧
  (∀ (q : Byte) (l : Lot) (entries : List EntryParam) (s : State),
    (s.boothAt l).state = .dark ∨ (s.boothAt l).state = .ended →
    (∀ p, holdsEntry (projOf (s.boothAt l) p) = false) →
    (entries = [] ∨ 24 < entries.length ∨ (∃ e ∈ entries, prepareEntry e = none) ∨
      (prepareEntries entries).map (fun xs => wellFormedProgramme (xs.map Prod.fst)) = some false) →
    exec (.loadProgramme q (lotNumber l) entries) s = .next (giveOffice q (refuse .outOfRange) s)) ∧
  (∀ (q : Byte) (l : Lot) (entries : List EntryParam) (xs : List (Segment × Bool))
    (es : List Segment) (lost : Bool) (s : State),
    (s.boothAt l).state = .dark ∨ (s.boothAt l).state = .ended → (s.boothAt l).current = none →
    (s.lineAt l).downReport = none → (∀ p, holdsEntry (projOf (s.boothAt l) p) = false) →
    prepareEntries entries = some xs → es = xs.map Prod.fst → lost = xs.any Prod.snd →
    wellFormedProgramme es = true →
    ∃ t, exec (.loadProgramme q (lotNumber l) entries) s = .next t ∧ Loaded l es s t ∧
      t.lines = s.lines ∧
      t.channelAt l = { s.channelAt l with
        conds := if lost = true then (s.channelAt l).conds.union (Conds.single .LOSS)
          else (s.channelAt l).conds } ∧
      t.olp = { (raiseLotIf (lost && !(s.channelAt l).conds.hasLoss && (s.channelAt l).mask.hasLoss)
          .levelAlert l s).olp with
        slot := some { overrun := s.rdy, seq := q, answer := okWith (.segments es) } }) ∧
  ∀ (q : Byte) (l : Lot) (c : Nat) (entries : List EntryParam) (xs : List (Segment × Bool))
    (es : List Segment) (lost : Conds) (s : State),
    (s.boothAt l).state = .dark ∨ (s.boothAt l).state = .ended → (s.boothAt l).current = some c →
    LineTakes 1 (s.lineAt l) → (∀ p, holdsEntry (projOf (s.boothAt l) p) = false) →
    prepareEntries entries = some xs → es = xs.map Prod.fst → wellFormedProgramme es = true →
    lost = (if xs.any Prod.snd = true then Conds.single .LOSS else Conds.empty) →
    ∃ t, exec (.loadProgramme q (lotNumber l) entries) s = .next t ∧ Loaded l es s t ∧
      Issued l (sourceSwitch l .silent s) s t ∧
      HandedOff l .silent (s.channelAt l).segLevel s t ∧
      (t.channelAt l).conds =
        (s.channelAt l).conds.union (lost.union (metBy (t.channelAt l) s.master)) ∧
      (((metBy (t.channelAt l) s.master).diff ((s.channelAt l).conds.union lost)).any = true →
        (t.channelAt l).lastCause = some .source) ∧
      (t.noticeOf .levelAlert).mask.getLsbD (l.val + 1) =
        ((s.noticeOf .levelAlert).mask.getLsbD (l.val + 1) ||
          (((t.channelAt l).conds.diff (s.channelAt l).conds).inter (s.channelAt l).mask).any) ∧
      t.olp.slot = some { overrun := s.rdy, seq := q, answer := okWith (.segments es) } ∧
      NoticesOf s t

/-- R71, R72, R73, R74, R69: the checks of the three edits in order, each edit's list, and the booth's
positions moved with their entries; an edit refused changes nothing. Here no level word is lost. -/
def Obligations.EditsKeepPositionsOnTheirEntries : Prop :=
  (∀ (q : Byte) (l : Lot) (p : Nat) (s : State) (why : Status),
    why = editVerdict (s.programmeAt l) (s.boothAt l) p (some ((s.programmeAt l).eraseIdx (p - 1))) →
    exec (.deleteSegment q (lotNumber l) p) s = .next (if why = .ok then
      giveOffice q (okWith (.values [some ((s.programmeAt l).length - 1)]))
        ((s.setProgramme l ((s.programmeAt l).eraseIdx (p - 1))).setBooth l { s.boothAt l with
          current := (s.boothAt l).current.map fun c => if p < c then c - 1 else c
          start := (s.boothAt l).start.map fun c => if p < c then c - 1 else c
          projA := lowerProjector p (s.boothAt l).projA
          projB := lowerProjector p (s.boothAt l).projB })
      else giveOffice q (refuse why) s)) ∧
  (∀ (q : Byte) (l : Lot) (p : Nat) (entry : EntryParam) (s : State) (why : Status),
    (∀ e, prepareEntry entry ≠ some (e, true)) →
    why = editVerdict (s.programmeAt l) (s.boothAt l) p
      ((prepareEntry entry).map fun x => (s.programmeAt l).set (p - 1) x.1) →
    (why ≠ .ok → exec (.editSegment q (lotNumber l) p entry) s =
      .next (giveOffice q (refuse why) s)) ∧
    (why = .ok → ∃ e, prepareEntry entry = some (e, false) ∧
      exec (.editSegment q (lotNumber l) p entry) s = .next (giveOffice q (okWith (.segment e none))
        (s.setProgramme l ((s.programmeAt l).set (p - 1) e))))) ∧
  (∀ (q : Byte) (l : Lot) (p : Nat) (entry : EntryParam) (s : State) (why : Status),
    (∀ e, prepareEntry entry ≠ some (e, true)) →
    why = editVerdict (s.programmeAt l) (s.boothAt l) p ((prepareEntry entry).map fun x =>
      (s.programmeAt l).take (p - 1) ++ x.1 :: (s.programmeAt l).drop (p - 1)) →
    (why ≠ .ok → exec (.insertSegment q (lotNumber l) p entry) s =
      .next (giveOffice q (refuse why) s)) ∧
    (why = .ok → ∃ e t, prepareEntry entry = some (e, false) ∧
      exec (.insertSegment q (lotNumber l) p entry) s = .next (giveOffice q
        (okWith (.segment e (some ((s.programmeAt l).length + 1)))) t) ∧
      t = (s.setProgramme l
        ((s.programmeAt l).take (p - 1) ++ e :: (s.programmeAt l).drop (p - 1))).setBooth l
          (t.boothAt l) ∧
      (t.boothAt l).current = (s.boothAt l).current.map (fun c => if p ≤ c then c + 1 else c) ∧
      (t.boothAt l).start = (s.boothAt l).start.map (fun c => if p ≤ c then c + 1 else c) ∧
      (∀ x, projOf (t.boothAt l) x = { projOf (s.boothAt l) x with
        pos := (projOf (s.boothAt l) x).pos.map fun c => if p ≤ c then c + 1 else c }) ∧
      t.boothAt l = { s.boothAt l with
        current := (t.boothAt l).current, start := (t.boothAt l).start
        projA := (t.boothAt l).projA, projB := (t.boothAt l).projB })) ∧
  ∀ (p : Nat) (x : ProjCtx), (lowerProjector p x).state = x.state ∧
    (lowerProjector p x).pos =
      (if x.pos = some p ∧ (x.state = .tailing ∨ x.state = .spent) then none
      else x.pos.map fun c => if p < c then c - 1 else c)

/-! ## The Booth Sequencer -/

/-- R86, R98, R80, R81: Start Show and Resume start the motor of the projector threaded with the position,
on a READY or HALTED booth whose line is UP; otherwise BAD_STATE. Resume removes the current position and
hands cause SOURCE, and refuses a position outside 1 to 24. That Resume of a booth without a current
position hands nothing over is the model's reading (log entry 14), and that a position outside 1 to 24 is
refused OUT_OF_RANGE also on a booth that is not HALTED is its choice (log entry 31). -/
def Obligations.StartShowAndResumeStartAMotor : Prop :=
  (∀ (q : Byte) (l : Lot) (s : State), (s.boothAt l).state ≠ .ready ∨
    threadedWith (s.boothAt l) 1 = none ∨ (s.lineAt l).up = false →
    exec (.startShow q (lotNumber l)) s = .next (giveOffice q (refuse .badState) s)) ∧
  (∀ (q : Byte) (l : Lot) (p : Projector) (s : State), (s.boothAt l).state = .ready →
    threadedWith (s.boothAt l) 1 = some p → LineRoom 1 (s.lineAt l) →
    ∃ t, exec (.startShow q (lotNumber l)) s = .next t ∧
      t.boothAt l = { setProj (s.boothAt l) p { projOf (s.boothAt l) p with state := .starting } with
        state := .starting, start := some 1 } ∧
      t.lineAt l = issuedLine (s.lineAt l) (.motor p true) ∧
      t.channels = s.channels ∧ WindowTold l s t ∧
      t.olp = { s.olp with
        slot := some { overrun := s.rdy, seq := q, answer := okWith (.projector p) } } ∧
      OnlyShow l s t) ∧
  (∀ (q : Byte) (l : Lot) (pos : Nat) (s : State), pos = 0 ∨ 24 < pos →
    exec (.resume q (lotNumber l) pos) s = .next (giveOffice q (refuse .outOfRange) s)) ∧
  (∀ (q : Byte) (l : Lot) (pos : Nat) (s : State), 1 ≤ pos → pos ≤ 24 →
    ((s.boothAt l).state ≠ .halted ∨ threadedWith (s.boothAt l) pos = none ∨
      (s.lineAt l).up = false) →
    exec (.resume q (lotNumber l) pos) s = .next (giveOffice q (refuse .badState) s)) ∧
  (∀ (q : Byte) (l : Lot) (pos c : Nat) (p : Projector) (s : State), 1 ≤ pos → pos ≤ 24 →
    (s.boothAt l).state = .halted → (s.boothAt l).current = some c →
    threadedWith (s.boothAt l) pos = some p → LineRoom 2 (s.lineAt l) →
    ∃ t, exec (.resume q (lotNumber l) pos) s = .next t ∧
      t.boothAt l = { setProj (s.boothAt l) p { projOf (s.boothAt l) p with state := .starting } with
        state := .starting, start := some pos, current := none, haltReason := none } ∧
      Issued l (.motor p true :: sourceSwitch l .fill s) s t ∧
      HandedOff l .fill (s.channelAt l).segLevel s t ∧ WindowTold l s t ∧
      t.olp.slot = some { overrun := s.rdy, seq := q, answer := okWith .none } ∧
      NoticesOf s t ∧ OnlyShow l s t) ∧
  (∀ (q : Byte) (l : Lot) (pos : Nat) (p : Projector) (s : State), 1 ≤ pos → pos ≤ 24 →
    (s.boothAt l).state = .halted → (s.boothAt l).current = none →
    threadedWith (s.boothAt l) pos = some p → LineRoom 1 (s.lineAt l) →
    ∃ t, exec (.resume q (lotNumber l) pos) s = .next t ∧
      t.boothAt l = { setProj (s.boothAt l) p { projOf (s.boothAt l) p with state := .starting } with
        state := .starting, start := some pos, haltReason := none } ∧
      t.lineAt l = issuedLine (s.lineAt l) (.motor p true) ∧
      t.channels = s.channels ∧ WindowTold l s t ∧
      t.olp = { s.olp with slot := some { overrun := s.rdy, seq := q, answer := okWith .none } } ∧
      OnlyShow l s t) ∧
  ∀ (b : BoothCtx) (pos : Nat) (p : Projector), threadedWith b pos = some p →
    (projOf b p).state = .threaded ∧ (projOf b p).pos = some pos

/-- R95, R97, R100, R80: the office's Halt in each of its four states and Clear Booth in every state, on a
line that is UP with room for the commands or DOWN: the commands in order, the projector states, the fields
removed, the source, and for a Halt no BOOTH_HALTED notice. A Halt in any state but the four is refused
BAD_STATE. Clear Booth of a DARK booth tells the Order Table nothing. That projector A comes before B within
a step of R95 and among the MOTOR off commands of Clear Booth is the model's choice (log entry 13): the
rules give no order of the two. -/
def Obligations.HaltAndClearStopTheMachines : Prop :=
  (∀ (q : Byte) (l : Lot) (s : State), (s.boothAt l).state ≠ .running →
    (s.boothAt l).state ≠ .changeoverPending → (s.boothAt l).state ≠ .intermission →
    (s.boothAt l).state ≠ .lateStart →
    exec (.halt q (lotNumber l)) s = .next (giveOffice q (refuse .badState) s)) ∧
  (∀ (q : Byte) (l : Lot) (cmds : List BoothCmd) (s : State),
    (s.boothAt l).state = .running ∨ (s.boothAt l).state = .changeoverPending ∨
      (s.boothAt l).state = .intermission ∨ (s.boothAt l).state = .lateStart →
    cmds = haltStops (s.boothAt l) ++ sourceSwitch l .fill s →
    LineTakes cmds.length (s.lineAt l) →
    ∃ t, exec (.halt q (lotNumber l)) s = .next t ∧ Issued l cmds s t ∧
      (∀ p, projOf (t.boothAt l) p = { projOf (s.boothAt l) p with
        state := haltsAt (projOf (s.boothAt l) p).state }) ∧
      t.boothAt l = haltedAs .officeHalt (s.boothAt l) (t.boothAt l) ∧
      HandedOff l .fill (s.channelAt l).segLevel s t ∧ WindowTold l s t ∧
      t.programmeAt l = s.programmeAt l ∧
      t.olp.slot = some { overrun := s.rdy, seq := q,
                          answer := okWith (.values [(s.boothAt l).current]) } ∧
      NoticesOf s t ∧ OnlyShow l s t) ∧
  ∀ (q : Byte) (l : Lot) (cmds : List BoothCmd) (s : State),
    cmds = clearStops (s.boothAt l) ++ sourceSwitch l .silent s →
    LineTakes cmds.length (s.lineAt l) →
    ∃ t, exec (.clearBooth q (lotNumber l)) s = .next t ∧ Issued l cmds s t ∧
      t.boothAt l = { state := .dark, current := none, start := none, latched := none,
                      haltReason := none, late := false, gap := false, intermission := none,
                      preRoll := none, motorLead := (s.boothAt l).motorLead,
                      projA := { state := .empty, pos := none },
                      projB := { state := .empty, pos := none } } ∧
      HandedOff l .silent (s.channelAt l).segLevel s t ∧ t.programmeAt l = s.programmeAt l ∧
      ((s.boothAt l).state ≠ .dark ∨ (s.boothAt l).current ≠ none → WindowTold l s t) ∧
      ((s.boothAt l).state = .dark → (s.boothAt l).current = none →
        t.lots = s.lots ∧ t.loops = s.loops) ∧
      t.olp.slot = some { overrun := s.rdy, seq := q, answer := okWith .none } ∧
      NoticesOf s t ∧ OnlyShow l s t

/-- R83, R84, R76, R106: a THREADED report of an EMPTY projector with the wanted label threads it at the
wanted position, and starts its motor at once when its entry is the latched one, in RUNNING, INTERMISSION
or LATE_START; another label, or no
wanted entry, raises WRONG_REEL; a projector in any other state ignores it. The wanted entry of a READY
booth is position 1, and of a DARK booth none. A label outside 1 to 999 drops the frame. -/
def Obligations.ThreadedIsCheckedAgainstTheProgramme : Prop :=
  (∀ (l : Lot) (p : Projector) (n : Nat) (s : State), (s.lineAt l).up = true →
    (s.lineAt l).downReport = none → 1 ≤ n → n ≤ 999 → (projOf (s.boothAt l) p).state ≠ .empty →
    exec (.threaded l p n) s = .next s) ∧
  (∀ (l : Lot) (p : Projector) (n : Nat) (s : State), (s.lineAt l).up = true →
    (s.lineAt l).downReport = none → 1 ≤ n → n ≤ 999 → (projOf (s.boothAt l) p).state = .empty →
    (∀ w, wantedPos (s.programmeAt l) (s.boothAt l) p = some w →
      (entryAt (s.programmeAt l) w).bind entryLabel ≠ some n) →
    exec (.threaded l p n) s = .next (raiseLot .wrongReel l s)) ∧
  (∀ (l : Lot) (p : Projector) (n w : Nat) (s : State), (s.lineAt l).up = true →
    (s.lineAt l).downReport = none → 1 ≤ n → n ≤ 999 → (projOf (s.boothAt l) p).state = .empty →
    wantedPos (s.programmeAt l) (s.boothAt l) p = some w →
    (entryAt (s.programmeAt l) w).bind entryLabel = some n → (s.boothAt l).latched = none →
    exec (.threaded l p n) s =
      .next (s.setBooth l (setProj (s.boothAt l) p { state := .threaded, pos := some w }))) ∧
  (∀ (l : Lot) (p : Projector) (n c : Nat) (e : Segment) (s : State), LineRoom 1 (s.lineAt l) →
    1 ≤ n → n ≤ 999 → (projOf (s.boothAt l) p).state = .empty → (s.boothAt l).state = .running ∨
      (s.boothAt l).state = .intermission ∨ (s.boothAt l).state = .lateStart →
    (s.boothAt l).current = some c → (s.boothAt l).latched = some e → isReelEntry e = true →
    wantedPos (s.programmeAt l) (s.boothAt l) p = some (c + 1) →
    (entryAt (s.programmeAt l) (c + 1)).bind entryLabel = some n →
    ∃ t, exec (.threaded l p n) s = .next t ∧
      t.boothAt l = { setProj (s.boothAt l) p { state := .starting, pos := some (c + 1) } with
        state := if (s.boothAt l).state = .running then .changeoverPending
          else (s.boothAt l).state } ∧
      t.lineAt l = issuedLine (s.lineAt l) (.motor p true) ∧ t.channels = s.channels ∧ t.olp = s.olp ∧
      ((s.boothAt l).state = .running → WindowTold l s t) ∧
      ((s.boothAt l).state ≠ .running → t = { s with booths := t.booths, lines := t.lines }) ∧
      OnlyShow l s t) ∧
  (∀ (es : List Segment) (b : BoothCtx) (p : Projector), b.state = .dark →
    wantedPos es b p = none) ∧
  (∀ (e : Segment) (es : List Segment) (b : BoothCtx) (p : Projector), b.state = .ready →
    isReelEntry e = true → heldPos (projOf b (otherProj p)) ≠ some 1 →
    wantedPos (e :: es) b p = some 1) ∧
  ∀ (l : Lot) (p : Projector) (n : Nat) (s : State), n = 0 ∨ 999 < n → exec (.threaded l p n) s =
    .next (s.setLine l { s.lineAt l with dropped := min ((s.lineAt l).dropped + 1) 65535 })

/-- R85: UNLOADED takes a SPENT or THREADED projector to EMPTY without a position; in every other state it
is ignored; it issues no command and does not change the booth state. -/
def Obligations.UnloadedEmptiesAStoppedProjector : Prop :=
  ∀ (l : Lot) (p : Projector) (s : State), (s.lineAt l).up = true → (s.lineAt l).downReport = none →
    exec (.unloaded l p) s = .next
      (if (projOf (s.boothAt l) p).state = .spent ∨ (projOf (s.boothAt l) p).state = .threaded then
        s.setBooth l (setProj (s.boothAt l) p { state := .empty, pos := none })
      else s)

/-- R87, R88, R89, R70, R81: CUE_MOTOR of the on-screen projector latches the entry after current and starts
the projector threaded with it; where none is threaded with a REEL or SNIPE it raises CHANGEOVER_RISK, and
for an INTERMISSION or END it only latches; MOTOR_UP before the changeover cue, or in an INTERMISSION, leaves
the projector waiting at speed; CUE_CHANGE then opens its dowser, closes the other's, and makes the latched
REEL or SNIPE current with its level word. -/
def Obligations.ChangeoverRunsOnTime : Prop :=
  (∀ (l : Lot) (p : Projector) (c : Nat) (e : Segment) (s : State), LineRoom 1 (s.lineAt l) →
    (s.boothAt l).state = .running → (projOf (s.boothAt l) p).state = .onScreen →
    (s.boothAt l).latched = none → (s.boothAt l).current = some c →
    entryAt (s.programmeAt l) (c + 1) = some e → isReelEntry e = true →
    projOf (s.boothAt l) (otherProj p) = { state := .threaded, pos := some (c + 1) } →
    ∃ t, exec (.cueMotor l p) s = .next t ∧
      t.boothAt l = { setProj (s.boothAt l) (otherProj p)
          { state := .starting, pos := some (c + 1) } with
        state := .changeoverPending, latched := some e } ∧
      t.lineAt l = issuedLine (s.lineAt l) (.motor (otherProj p) true) ∧
      t.channels = s.channels ∧ t.olp = s.olp ∧ WindowTold l s t ∧ OnlyShow l s t) ∧
  (∀ (l : Lot) (p : Projector) (c : Nat) (e : Segment) (s : State), (s.lineAt l).up = true →
    (s.lineAt l).downReport = none → (projOf (s.boothAt l) p).state = .onScreen →
    (s.boothAt l).latched = none → (s.boothAt l).current = some c →
    entryAt (s.programmeAt l) (c + 1) = some e →
    (isReelEntry e = true → (projOf (s.boothAt l) (otherProj p)).state ≠ .threaded ∨
      (projOf (s.boothAt l) (otherProj p)).pos ≠ some (c + 1)) →
    exec (.cueMotor l p) s = .next ((if isReelEntry e then raiseLot .changeoverRisk l s else s).setBooth l
      { s.boothAt l with latched := some e })) ∧
  (∀ (l : Lot) (p : Projector) (s : State), (s.lineAt l).up = true →
    (s.lineAt l).downReport = none → ((s.boothAt l).state = .intermission ∨
      ((s.boothAt l).state = .changeoverPending ∧
        (s.boothAt l).late = false ∧ (s.boothAt l).gap = false)) →
    (projOf (s.boothAt l) p).state = .starting →
    exec (.motorUp l p) s = .next (s.setBooth l
      (setProj (s.boothAt l) p { projOf (s.boothAt l) p with state := .atSpeed }))) ∧
  (∀ (l : Lot) (p : Projector) (c : Nat) (e : Segment) (w : LevelWord) (s : State),
    LineRoom 3 (s.lineAt l) →
    (s.boothAt l).state = .changeoverPending → (s.boothAt l).late = false →
    (projOf (s.boothAt l) p).state = .onScreen → (s.boothAt l).current = some c →
    (s.boothAt l).latched = some e → entryLevel e = some w →
    projOf (s.boothAt l) (otherProj p) = { state := .atSpeed, pos := some (c + 1) } →
    ∃ t, exec (.cueChange l p) s = .next t ∧
      projOf (t.boothAt l) p = { projOf (s.boothAt l) p with state := .tailing } ∧
      projOf (t.boothAt l) (otherProj p) = { state := .onScreen, pos := some (c + 1) } ∧
      t.boothAt l = { s.boothAt l with
        state := .running, current := some (c + 1), latched := none, late := false, gap := false
        projA := (t.boothAt l).projA, projB := (t.boothAt l).projB } ∧
      Issued l ([.dowser (otherProj p) true, .dowser p false] ++
        sourceSwitch l (projSource (otherProj p)) s) s t ∧
      HandedOff l (projSource (otherProj p)) w s t ∧ WindowTold l s t ∧
      NoticesOf s t ∧ OnlyShow l s t) ∧
  ∀ (l : Lot) (p : Projector) (s : State), (s.lineAt l).up = true → (s.lineAt l).downReport = none →
    (projOf (s.boothAt l) p).state ≠ .onScreen →
    exec (.cueMotor l p) s = .next s ∧ exec (.cueChange l p) s = .next s ∧
      ((projOf (s.boothAt l) p).state ≠ .starting → exec (.motorUp l p) s = .next s)

/-- R87, R88, R89, R93: the changeover made late. A CUE_CHANGE with the incoming projector STARTING sets the
late flag, and with no projector started for the entry raises CHANGEOVER_RISK besides; a RUNOUT then closes
and stops the outgoing projector, sets the gap flag and turns the source to FILL; the MOTOR_UP that follows
opens the incoming dowser alone, makes the latched entry current and raises LATE_CHANGEOVER and SCREEN_GAP.
Before a RUNOUT it closes the outgoing dowser too and raises LATE_CHANGEOVER alone. A CUE_CHANGE or RUNOUT
that finds nothing latched does the work of CUE_MOTOR first (R88). MOTOR_UP of a STARTING booth begins the
show at its start position. The next entry is a REEL or a SNIPE. -/
def Obligations.LateChangeoverRaisesItsNotices : Prop :=
  (∀ (l : Lot) (p : Projector) (c : Nat) (e : Segment) (s : State), (s.lineAt l).up = true →
    (s.lineAt l).downReport = none → (s.boothAt l).late = false →
    (projOf (s.boothAt l) p).state = .onScreen → (s.boothAt l).current = some c →
    (s.boothAt l).latched = some e → isReelEntry e = true →
    projOf (s.boothAt l) (otherProj p) = { state := .starting, pos := some (c + 1) } →
    exec (.cueChange l p) s = .next (s.setBooth l { s.boothAt l with late := true })) ∧
  (∀ (l : Lot) (p : Projector) (c : Nat) (e : Segment) (s : State), (s.lineAt l).up = true →
    (s.lineAt l).downReport = none → (s.boothAt l).late = false →
    (projOf (s.boothAt l) p).state = .onScreen → (s.boothAt l).current = some c →
    (s.boothAt l).latched = some e → isReelEntry e = true →
    ((projOf (s.boothAt l) (otherProj p)).pos ≠ some (c + 1) ∨
      ((projOf (s.boothAt l) (otherProj p)).state ≠ .starting ∧
        (projOf (s.boothAt l) (otherProj p)).state ≠ .atSpeed)) →
    exec (.cueChange l p) s = .next
      ((raiseLot .changeoverRisk l s).setBooth l { s.boothAt l with late := true })) ∧
  (∀ (l : Lot) (p : Projector) (c : Nat) (e : Segment) (w : LevelWord) (s : State),
    LineRoom 3 (s.lineAt l) →
    (s.boothAt l).state = .changeoverPending → (s.boothAt l).late = true →
    (s.boothAt l).gap = false → (s.boothAt l).current = some c →
    (s.boothAt l).latched = some e → entryLevel e = some w →
    projOf (s.boothAt l) p = { state := .starting, pos := some (c + 1) } →
    ∃ t, exec (.motorUp l p) s = .next t ∧
      projOf (t.boothAt l) p = { state := .onScreen, pos := some (c + 1) } ∧
      projOf (t.boothAt l) (otherProj p) =
        { projOf (s.boothAt l) (otherProj p) with state := .tailing } ∧
      t.boothAt l = { s.boothAt l with
        state := .running, current := some (c + 1), latched := none, late := false, gap := false
        projA := (t.boothAt l).projA, projB := (t.boothAt l).projB } ∧
      Issued l ([.dowser p true, .dowser (otherProj p) false] ++ sourceSwitch l (projSource p) s) s t ∧
      HandedOff l (projSource p) w s t ∧ WindowTold l s t ∧
      NoticesOf (raiseLot .lateChangeover l s) t ∧ OnlyShow l s t) ∧
  (∀ (l : Lot) (p : Projector) (c : Nat) (e : Segment) (s : State), LineRoom 3 (s.lineAt l) →
    (s.boothAt l).state = .changeoverPending → (projOf (s.boothAt l) p).state = .onScreen →
    (s.boothAt l).current = some c → (s.boothAt l).latched = some e → isReelEntry e = true →
    projOf (s.boothAt l) (otherProj p) = { state := .starting, pos := some (c + 1) } →
    ∃ t, exec (.runout l p) s = .next t ∧
      t.boothAt l = { setProj (s.boothAt l) p { projOf (s.boothAt l) p with state := .spent } with
        gap := true } ∧
      Issued l ([.dowser p false, .motor p false] ++ sourceSwitch l .fill s) s t ∧
      HandedOff l .fill (s.channelAt l).segLevel s t ∧ NoticesOf s t ∧ OnlyShow l s t) ∧
  (∀ (l : Lot) (p : Projector) (c : Nat) (e : Segment) (w : LevelWord) (s : State),
    LineRoom 2 (s.lineAt l) →
    (s.boothAt l).state = .changeoverPending → (s.boothAt l).gap = true →
    (s.boothAt l).current = some c → (s.boothAt l).latched = some e → entryLevel e = some w →
    projOf (s.boothAt l) p = { state := .starting, pos := some (c + 1) } →
    ∃ t, exec (.motorUp l p) s = .next t ∧
      t.boothAt l = { setProj (s.boothAt l) p { state := .onScreen, pos := some (c + 1) } with
        state := .running, current := some (c + 1), latched := none, late := false, gap := false } ∧
      Issued l (.dowser p true :: sourceSwitch l (projSource p) s) s t ∧
      HandedOff l (projSource p) w s t ∧ WindowTold l s t ∧
      NoticesOf (raiseLot .screenGap l (raiseLot .lateChangeover l s)) t ∧ OnlyShow l s t) ∧
  (∀ (l : Lot) (p : Projector) (s : State), LineRoom 5 (s.lineAt l) →
    (projOf (s.boothAt l) p).state = .onScreen → (s.boothAt l).latched = none →
    (s.boothAt l).late = false →
    ∀ i ∈ ([.cueChange l p, .runout l p] : List Instr), ∃ u t,
      exec (.cueMotor l p) s = .next u ∧ exec i u = .next t ∧ exec i s = .next t) ∧
  ∀ (l : Lot) (p : Projector) (c : Nat) (e : Segment) (w : LevelWord) (s : State),
    LineRoom 2 (s.lineAt l) → (s.boothAt l).state = .starting → (s.boothAt l).start = some c →
    entryAt (s.programmeAt l) c = some e → entryLevel e = some w →
    projOf (s.boothAt l) p = { state := .starting, pos := some c } →
    ∃ t, exec (.motorUp l p) s = .next t ∧
      t.boothAt l = { setProj (s.boothAt l) p { state := .onScreen, pos := some c } with
        state := .running, current := some c, start := none } ∧
      Issued l (.dowser p true :: sourceSwitch l (projSource p) s) s t ∧
      HandedOff l (projSource p) w s t ∧ WindowTold l s t ∧
      NoticesOf s t ∧ OnlyShow l s t

/-- R93, R94, R95, R96, R150, R178: RUNOUT with END latched ends the show and releases the lot's held orders
at its post level; with an INTERMISSION latched it begins the intermission; with the next reel AT_SPEED the
changeover is made late; with none started the booth halts with reason RUNOUT and SCREEN_GAP. BREAK of the
on-screen reel halts the booth; of an incoming one it halts a STARTING booth or one in a gap, and else
takes CHANGEOVER_PENDING back to RUNNING, and an INTERMISSION or LATE_START nowhere, with CHANGEOVER_RISK;
at speed in a gap, a state that no run reaches, it is ignored (log entry 18). The runout or break of a
TAILING projector stops its motor; a projector EMPTY, THREADED or SPENT ignores both. The next reel may be
a SNIPE. -/
def Obligations.RunoutAndBreakEndTheReel : Prop :=
  (∀ (l : Lot) (p : Projector) (c : Nat) (s : State), LineRoom 3 (s.lineAt l) →
    (s.boothAt l).state = .running → (projOf (s.boothAt l) p).state = .onScreen →
    (s.boothAt l).current = some c → (s.boothAt l).latched = some .finish →
    ∃ t, exec (.runout l p) s = .next t ∧
      t.boothAt l = { setProj (s.boothAt l) p { projOf (s.boothAt l) p with state := .spent } with
        state := .ended, current := some (c + 1), latched := none, late := false, gap := false } ∧
      Issued l ([.dowser p false, .motor p false] ++ sourceSwitch l .silent s) s t ∧
      HandedOff l .silent (s.channelAt l).segLevel s t ∧ (t.lotAt l).window = .closed ∧
      CallsWindow l s t ∧ HeldReleased l (s.lotAt l).postLevel s t ∧ NoticesOf s t ∧
      OnlyShow l s t) ∧
  (∀ (l : Lot) (p : Projector) (s : State), LineRoom 3 (s.lineAt l) →
    (s.boothAt l).state = .running → (projOf (s.boothAt l) p).state = .onScreen →
    (projOf (s.boothAt l) (otherProj p)).state = .threaded →
    ∃ t, exec (.filmBreak l p) s = .next t ∧
      t.boothAt l = { setProj (s.boothAt l) p { projOf (s.boothAt l) p with state := .spent } with
        state := .halted, haltReason := some .filmBreak, latched := none, late := false,
        gap := false, intermission := none, preRoll := none } ∧
      Issued l ([.dowser p false, .motor p false] ++ sourceSwitch l .fill s) s t ∧
      HandedOff l .fill (s.channelAt l).segLevel s t ∧ WindowTold l s t ∧
      NoticesOf (raiseLot .boothHalted l s) t ∧ OnlyShow l s t) ∧
  (∀ (l : Lot) (p : Projector) (c d : Nat) (s : State), LineRoom 3 (s.lineAt l) →
    (projOf (s.boothAt l) p).state = .onScreen → (s.boothAt l).current = some c →
    (s.boothAt l).state ≠ .intermission → (s.boothAt l).latched = some (.intermission d) →
    ∃ t, exec (.runout l p) s = .next t ∧
      t.boothAt l = { setProj (s.boothAt l) p { projOf (s.boothAt l) p with state := .spent } with
        state := .intermission, current := some (c + 1), latched := none, intermission := some d
        preRoll := some (d - (s.boothAt l).motorLead) } ∧
      Issued l ([.dowser p false, .motor p false] ++ sourceSwitch l .fill s) s t ∧
      HandedOff l .fill (s.channelAt l).segLevel s t ∧ WindowTold l s t ∧ NoticesOf s t ∧
      OnlyShow l s t) ∧
  (∀ (l : Lot) (p : Projector) (c : Nat) (e : Segment) (w : LevelWord) (s : State),
    LineRoom 4 (s.lineAt l) →
    (projOf (s.boothAt l) p).state = .onScreen → (s.boothAt l).current = some c →
    (s.boothAt l).latched = some e → entryLevel e = some w →
    projOf (s.boothAt l) (otherProj p) = { state := .atSpeed, pos := some (c + 1) } →
    ∃ t, exec (.runout l p) s = .next t ∧
      projOf (t.boothAt l) p = { projOf (s.boothAt l) p with state := .spent } ∧
      projOf (t.boothAt l) (otherProj p) = { state := .onScreen, pos := some (c + 1) } ∧
      t.boothAt l = { s.boothAt l with
        state := .running, current := some (c + 1), latched := none, late := false, gap := false
        projA := (t.boothAt l).projA, projB := (t.boothAt l).projB } ∧
      Issued l ([.dowser (otherProj p) true, .dowser p false, .motor p false] ++
        sourceSwitch l (projSource (otherProj p)) s) s t ∧
      HandedOff l (projSource (otherProj p)) w s t ∧ WindowTold l s t ∧
      NoticesOf (raiseLot .lateChangeover l s) t ∧ OnlyShow l s t) ∧
  (∀ (l : Lot) (p : Projector) (c : Nat) (e : Segment) (s : State), LineRoom 3 (s.lineAt l) →
    (s.boothAt l).state = .running → (projOf (s.boothAt l) p).state = .onScreen →
    (s.boothAt l).current = some c → (s.boothAt l).latched = some e → isReelEntry e = true →
    stands (projOf (s.boothAt l) (otherProj p)) →
    ∃ t, exec (.runout l p) s = .next t ∧
      t.boothAt l = haltedAs .runout (s.boothAt l)
        (setProj (s.boothAt l) p { projOf (s.boothAt l) p with state := .spent }) ∧
      Issued l ([.dowser p false, .motor p false] ++ sourceSwitch l .fill s) s t ∧
      HandedOff l .fill (s.channelAt l).segLevel s t ∧ WindowTold l s t ∧
      NoticesOf (raiseLot .screenGap l (raiseLot .boothHalted l s)) t ∧ OnlyShow l s t) ∧
  (∀ (l : Lot) (p : Projector) (s : State), LineRoom 2 (s.lineAt l) →
    (projOf (s.boothAt l) p).state = .starting → stands (projOf (s.boothAt l) (otherProj p)) →
    (s.boothAt l).state = .starting ∨
      ((s.boothAt l).state = .changeoverPending ∧ (s.boothAt l).gap = true) →
    ∃ t, exec (.filmBreak l p) s = .next t ∧
      t.boothAt l = haltedAs .filmBreak (s.boothAt l)
        (setProj (s.boothAt l) p { projOf (s.boothAt l) p with state := .spent }) ∧
      Issued l (.motor p false :: sourceSwitch l .fill s) s t ∧
      HandedOff l .fill (s.channelAt l).segLevel s t ∧ WindowTold l s t ∧
      NoticesOf (raiseLot .boothHalted l s) t ∧ OnlyShow l s t) ∧
  (∀ (l : Lot) (p : Projector) (s : State), LineRoom 1 (s.lineAt l) →
    (projOf (s.boothAt l) p).state = .starting ∨ (projOf (s.boothAt l) p).state = .atSpeed →
    ((s.boothAt l).state = .changeoverPending ∧ (s.boothAt l).gap = false) ∨
      (s.boothAt l).state = .intermission ∨ (s.boothAt l).state = .lateStart →
    ∃ t, exec (.filmBreak l p) s = .next t ∧
      t.boothAt l = { setProj (s.boothAt l) p { projOf (s.boothAt l) p with state := .spent } with
        state := if (s.boothAt l).state = .changeoverPending then .running
          else (s.boothAt l).state } ∧
      t.lineAt l = issuedLine (s.lineAt l) (.motor p false) ∧ t.channels = s.channels ∧
      t.olp.notices = (raiseLot .changeoverRisk l s).olp.notices ∧ OnlyShow l s t) ∧
  (∀ (l : Lot) (p : Projector) (s : State), (s.lineAt l).up = true → (s.lineAt l).downReport = none →
    (projOf (s.boothAt l) p).state = .atSpeed → (s.boothAt l).state = .changeoverPending →
    (s.boothAt l).gap = true → exec (.filmBreak l p) s = .next s) ∧
  (∀ (l : Lot) (p : Projector) (s : State), LineRoom 1 (s.lineAt l) →
    (projOf (s.boothAt l) p).state = .tailing →
    ∀ i ∈ ([.runout l p, .filmBreak l p] : List Instr), ∃ t, exec i s = .next t ∧
      t.boothAt l = setProj (s.boothAt l) p { projOf (s.boothAt l) p with state := .spent } ∧
      t.lineAt l = issuedLine (s.lineAt l) (.motor p false) ∧
      t = { s with booths := t.booths, lines := t.lines } ∧ OnlyShow l s t) ∧
  ∀ (l : Lot) (p : Projector) (s : State), (s.lineAt l).up = true → (s.lineAt l).downReport = none →
    ((projOf (s.boothAt l) p).state = .empty ∨ (projOf (s.boothAt l) p).state = .threaded ∨
      (projOf (s.boothAt l) p).state = .spent) →
    exec (.runout l p) s = .next s ∧ exec (.filmBreak l p) s = .next s

/-- R90, R91, R92, R87, R70, R78: CUE_CHANGE with an INTERMISSION latched begins it, with its two deadlines;
the pre-roll expiry, at the count 0, latches the entry after it and starts the projector threaded with it,
or raises CHANGEOVER_RISK where none is; the intermission expiry, at the count 0, brings an AT_SPEED
projector on screen, or goes LATE_START, whose MOTOR_UP makes the changeover with LATE_CHANGEOVER. That at
any other count neither row changes anything is the model's choice (log entry 4). The next entry is a REEL
or a SNIPE. -/
def Obligations.IntermissionRunsToTheNextReel : Prop :=
  (∀ (l : Lot) (p : Projector) (c d : Nat) (s : State), LineRoom 2 (s.lineAt l) →
    (s.boothAt l).late = false → (projOf (s.boothAt l) p).state = .onScreen →
    (s.boothAt l).current = some c → (s.boothAt l).latched = some (.intermission d) →
    ∃ t, exec (.cueChange l p) s = .next t ∧
      t.boothAt l = { setProj (s.boothAt l) p { projOf (s.boothAt l) p with state := .tailing } with
        state := .intermission, current := some (c + 1), latched := none, intermission := some d
        preRoll := some (d - (s.boothAt l).motorLead) } ∧
      Issued l (.dowser p false :: sourceSwitch l .fill s) s t ∧
      HandedOff l .fill (s.channelAt l).segLevel s t ∧ WindowTold l s t ∧
      NoticesOf s t ∧ OnlyShow l s t) ∧
  (∀ (l : Lot) (s : State), ((s.boothAt l).preRoll ≠ some 0 → exec (.preRollExpiry l) s = .next s) ∧
    ((s.boothAt l).intermission ≠ some 0 → exec (.intermissionExpiry l) s = .next s)) ∧
  (∀ (l : Lot) (c : Nat) (s : State), (s.lineAt l).downReport = none →
    (s.boothAt l).state = .intermission → (s.boothAt l).preRoll = some 0 →
    (s.boothAt l).current = some c → threadedWith (s.boothAt l) (c + 1) = none →
    exec (.preRollExpiry l) s = .next ((raiseLot .changeoverRisk l s).setBooth l { s.boothAt l with
      latched := entryAt (s.programmeAt l) (c + 1), preRoll := none })) ∧
  (∀ (l : Lot) (p : Projector) (c : Nat) (e : Segment) (w : LevelWord) (s : State),
    LineRoom 2 (s.lineAt l) →
    (s.boothAt l).state = .lateStart → (s.boothAt l).current = some c →
    (s.boothAt l).latched = some e → entryLevel e = some w →
    projOf (s.boothAt l) p = { state := .starting, pos := some (c + 1) } →
    ∃ t, exec (.motorUp l p) s = .next t ∧
      t.boothAt l = { setProj (s.boothAt l) p { state := .onScreen, pos := some (c + 1) } with
        state := .running, current := some (c + 1), latched := none, late := false, gap := false } ∧
      Issued l (.dowser p true :: sourceSwitch l (projSource p) s) s t ∧
      HandedOff l (projSource p) w s t ∧ WindowTold l s t ∧
      NoticesOf (raiseLot .lateChangeover l s) t ∧ OnlyShow l s t) ∧
  (∀ (l : Lot) (p : Projector) (c : Nat) (e : Segment) (s : State), LineRoom 1 (s.lineAt l) →
    (s.boothAt l).state = .intermission → (s.boothAt l).preRoll = some 0 →
    (s.boothAt l).current = some c → entryAt (s.programmeAt l) (c + 1) = some e →
    threadedWith (s.boothAt l) (c + 1) = some p →
    ∃ t, exec (.preRollExpiry l) s = .next t ∧
      t.boothAt l = { setProj (s.boothAt l) p { projOf (s.boothAt l) p with state := .starting } with
        latched := some e, preRoll := none } ∧
      t.lineAt l = issuedLine (s.lineAt l) (.motor p true) ∧
      t = { s with booths := t.booths, lines := t.lines } ∧ OnlyShow l s t) ∧
  (∀ (l : Lot) (p : Projector) (c : Nat) (e : Segment) (w : LevelWord) (s : State),
    LineRoom 2 (s.lineAt l) →
    (s.boothAt l).state = .intermission → (s.boothAt l).preRoll = none →
    (s.boothAt l).intermission = some 0 → (s.boothAt l).current = some c →
    (s.boothAt l).latched = some e → entryLevel e = some w →
    projOf (s.boothAt l) p = { state := .atSpeed, pos := some (c + 1) } →
    (p = .b → (s.boothAt l).projA.state ≠ .atSpeed) →
    ∃ t, exec (.intermissionExpiry l) s = .next t ∧
      t.boothAt l = { setProj (s.boothAt l) p { state := .onScreen, pos := some (c + 1) } with
        state := .running, current := some (c + 1), latched := none, late := false, gap := false
        intermission := none } ∧
      Issued l (.dowser p true :: sourceSwitch l (projSource p) s) s t ∧
      HandedOff l (projSource p) w s t ∧
      WindowTold l s t ∧ NoticesOf s t ∧ OnlyShow l s t) ∧
  ∀ (l : Lot) (s : State), (s.lineAt l).downReport = none →
    (s.boothAt l).state = .intermission → (s.boothAt l).preRoll = none →
    (s.boothAt l).intermission = some 0 → (s.boothAt l).projA.state ≠ .atSpeed →
    (s.boothAt l).projB.state ≠ .atSpeed →
    ∃ t, exec (.intermissionExpiry l) s = .next t ∧
      t.boothAt l = { s.boothAt l with state := .lateStart, intermission := none } ∧
      t.lines = s.lines ∧ t.channels = s.channels ∧ NoticesOf s t ∧ OnlyShow l s t

/-! ## The Booth Line Ports -/

/-- R103, R104, R105, R109, R110: the ACK of the command in flight removes it, records an acknowledged
drive and sends the oldest waiting command, else the staged drive, else nothing, under the next command
number; any other ACK is ignored; the first expiry of the deadline sends the command again under its own
number; a frame not valid is only counted. R107: a command issued to a port is discarded on a DOWN line,
sent at once on an idle one and waits on another, and on a full queue takes the line DOWN; R108, R132: a
drive code that differs from the latest drive is discarded, sent at once or staged. -/
def Obligations.LinesCarryOneCommandAtATime : Prop :=
  (∀ (l : Lot) (f : InFlight) (cmd : BoothCmd) (rest : List BoothCmd) (s : State),
    (s.lineAt l).up = true → (s.lineAt l).inFlight = some f → f.number ≤ 255 →
    (s.lineAt l).queue = cmd :: rest →
    exec (.ack l f.number) s = .next (s.setLine l { s.lineAt l with
      inFlight := some { cmd := cmd, number := (s.lineAt l).nextNumber, retry := 0, deadline := 250 }
      queue := rest, nextNumber := ((s.lineAt l).nextNumber + 1) % 256
      sent := some (cmd, (s.lineAt l).nextNumber)
      lastDrive := match f.cmd with
        | .drive d => some d
        | _ => (s.lineAt l).lastDrive })) ∧
  (∀ (l : Lot) (f : InFlight) (s : State), (s.lineAt l).up = true → (s.lineAt l).inFlight = some f →
    f.number ≤ 255 → (s.lineAt l).queue = [] →
    exec (.ack l f.number) s = .next (s.setLine l (match (s.lineAt l).staged with
      | some d => { s.lineAt l with
        inFlight := some { cmd := .drive d, number := (s.lineAt l).nextNumber, retry := 0,
                           deadline := 250 }
        staged := none, nextNumber := ((s.lineAt l).nextNumber + 1) % 256
        sent := some (.drive d, (s.lineAt l).nextNumber)
        lastDrive := match f.cmd with
          | .drive d => some d
          | _ => (s.lineAt l).lastDrive }
      | none => { s.lineAt l with
        inFlight := none
        lastDrive := match f.cmd with
          | .drive d => some d
          | _ => (s.lineAt l).lastDrive }))) ∧
  (∀ (l : Lot) (n : Nat) (s : State), (s.lineAt l).up = true → n ≤ 255 →
    (∀ f, (s.lineAt l).inFlight = some f → f.number ≠ n) → exec (.ack l n) s = .next s) ∧
  (∀ (l : Lot) (f : InFlight) (s : State), (s.lineAt l).inFlight = some f → f.retry = 0 →
    exec (.ackDeadlineExpiry l) s = .next (s.setLine l { s.lineAt l with
      inFlight := some { f with retry := 1, deadline := 250 }, sent := some (f.cmd, f.number) })) ∧
  (∀ (l : Lot) (x : Issuer) (cmd : BoothCmd) (code : Nat) (s : State),
    ((s.lineAt l).queue.length < 7 ∨ (s.lineAt l).up = false →
      issueCommand l x cmd s = s.setLine l (issuedLine (s.lineAt l) cmd)) ∧
    ((s.lineAt l).up = true → 7 ≤ (s.lineAt l).queue.length →
      issueCommand l x cmd s = raiseLot .lineDown l (s.setLine l { s.lineAt l with
        up := false, inFlight := none, queue := [], staged := none, lastDrive := none
        downReport := some x })) ∧
    offerDrive l code s = s.setLine l (driveLine code (s.lineAt l))) ∧
  ∀ (l : Lot) (s : State), exec (.boothFrameDropped l) s =
    .next (s.setLine l { s.lineAt l with dropped := min ((s.lineAt l).dropped + 1) 65535 })

/-- R99, R107, R110, R111, R112, R86: the second expiry takes the line DOWN with its notice and halts a
running booth with reason LINE_DOWN, its projectors stopped and its source FILL; a HELLO, or any valid
frame, brings a DOWN line UP with its notice, sends the lot's source and stages its drive code, and an ACK
that does so is then ignored; a HELLO on an UP line does both. BOOTH_LINE_DOWN stops a booth's projectors
and halts one whose show runs; a START_SHOW whose MOTOR finds the queue full ends HALTED. That
BOOTH_LINE_DOWN changes nothing while the line is UP and no report waits is log entry 6. -/
def Obligations.LineDownHaltsTheBooth : Prop :=
  (∀ (l : Lot) (f : InFlight) (s : State), (s.lineAt l).inFlight = some f → f.retry = 1 →
    (s.boothAt l).state = .running →
    ∃ t, exec (.ackDeadlineExpiry l) s = .next t ∧
      t.lineAt l = { s.lineAt l with
        up := false, inFlight := none, queue := [], staged := none, lastDrive := none
        downReport := none } ∧
      t.boothAt l = haltedAs .lineDown (s.boothAt l) (stopProjectors (s.boothAt l)) ∧
      HandedOff l .fill (s.channelAt l).segLevel s t ∧ WindowTold l s t ∧
      NoticesOf (raiseLot .boothHalted l (raiseLot .lineDown l s)) t ∧ OnlyShow l s t) ∧
  (∀ (l : Lot) (s : State), (s.lineAt l).up = false → (s.lineAt l).inFlight = none →
    (s.lineAt l).queue = [] →
    exec (.hello l) s = .next (raiseLot .lineUp l (s.setLine l { s.lineAt l with
      up := true
      inFlight := some { cmd := .source (s.channelAt l).source, number := (s.lineAt l).nextNumber,
                         retry := 0, deadline := 250 }
      nextNumber := ((s.lineAt l).nextNumber + 1) % 256
      sent := some (.source (s.channelAt l).source, (s.lineAt l).nextNumber)
      staged := some (s.channelAt l).drive })) ∧
    (∀ n, n ≤ 255 → exec (.ack l n) s = exec (.hello l) s) ∧
    ∀ (p : Projector) (n : Nat) (w : LevelWord), 1 ≤ n → n ≤ 999 → w.e ≤ 7 → w.m ≤ 8191 →
      ∀ i ∈ ([.threaded l p n, .cueMotor l p, .cueChange l p, .motorUp l p, .runout l p,
        .filmBreak l p, .unloaded l p, .probe l w] : List Instr), ∃ t u,
        exec (.hello l) s = .next t ∧ exec i t = .next u ∧ exec i s = .next u) ∧
  (∀ (l : Lot) (s : State), (s.lineAt l).up = true → ∃ t, exec (.hello l) s = .next t ∧
    t.lineAt l = { s.lineAt l with
      inFlight := some { cmd := .source (t.channelAt l).source, number := (s.lineAt l).nextNumber,
                         retry := 0, deadline := 250 }
      queue := [], nextNumber := ((s.lineAt l).nextNumber + 1) % 256
      sent := some (.source (t.channelAt l).source, (s.lineAt l).nextNumber)
      staged := some (t.channelAt l).drive, lastDrive := none, downReport := none } ∧
    (runsShow (s.boothAt l).state = false → t.boothAt l = stopProjectors (s.boothAt l) ∧
      t.channels = s.channels ∧ t.lots = s.lots ∧
      NoticesOf (raiseLot .lineUp l (raiseLot .lineDown l s)) t) ∧
    (runsShow (s.boothAt l).state = true →
      t.boothAt l = haltedAs .lineDown (s.boothAt l) (stopProjectors (s.boothAt l)) ∧
      HandedOff l .fill (s.channelAt l).segLevel s t ∧ WindowTold l s t ∧
      NoticesOf (raiseLot .lineUp l (raiseLot .boothHalted l (raiseLot .lineDown l s))) t) ∧
    OnlyShow l s t) ∧
  (∀ (l : Lot) (s : State),
    (s.lineAt l).up = false ∨ ((s.lineAt l).downReport ≠ none ∧ (s.lineAt l).queue.length < 7) →
    ∃ t, exec (.boothLineDown l) s = .next t ∧
      (runsShow (s.boothAt l).state = false → t = (s.setLine l { s.lineAt l with
        downReport := none }).setBooth l (stopProjectors (s.boothAt l))) ∧
      (runsShow (s.boothAt l).state = true →
        t.boothAt l = haltedAs .lineDown (s.boothAt l) (stopProjectors (s.boothAt l)) ∧
        t.lineAt l = driveLine (t.channelAt l).drive
          ((sourceSwitch l .fill s).foldl issuedLine { s.lineAt l with downReport := none }) ∧
        HandedOff l .fill (s.channelAt l).segLevel s t ∧ WindowTold l s t ∧
        NoticesOf (raiseLot .boothHalted l s) t ∧ OnlyShow l s t)) ∧
  (∀ b : BoothCtx, stopProjectors b = { b with
    projA := { b.projA with state := stoppedState b.projA.state }
    projB := { b.projB with state := stoppedState b.projB.state } }) ∧
  (∀ (q : Byte) (l : Lot) (p : Projector) (s : State), (s.boothAt l).state = .ready →
    threadedWith (s.boothAt l) 1 = some p → (s.lineAt l).up = true →
    7 ≤ (s.lineAt l).queue.length →
    ∃ t, exec (.startShow q (lotNumber l)) s = .next t ∧
      t.boothAt l = haltedAs .lineDown { s.boothAt l with start := some 1 }
        (stopProjectors (s.boothAt l)) ∧
      t.lineAt l = { s.lineAt l with
        up := false, inFlight := none, queue := [], staged := none, lastDrive := none
        downReport := none } ∧
      HandedOff l .fill (s.channelAt l).segLevel s t ∧ WindowTold l s t ∧
      t.olp.slot = some { overrun := s.rdy, seq := q, answer := okWith (.projector p) } ∧
      NoticesOf (raiseLot .boothHalted l (raiseLot .lineDown l s)) t ∧ OnlyShow l s t) ∧
  ∀ (l : Lot) (s : State), (s.lineAt l).up = true → (s.lineAt l).downReport = none →
    exec (.boothLineDown l) s = .next s

/-! ## Level arithmetic -/

/-- R118, R124, R125, R126, R127: normalisation keeps a word's value or loses it with LOSS; compare orders
lawful words by their values; clamp returns its limit or the word; fix returns the value in units of 1 of
4,096 rounded down, 4,095 with CLIP above, and 0 with LOSS exactly for normalised words of exponent 0. -/
def Obligations.LevelWordsNormaliseCompareAndFix : Prop :=
  (∀ w : LevelWord, w.e ≤ 7 → w.m ≤ 8191 →
    lawfulWord (normalise w).1 = true ∧
    ((normalise w).2 = none → levelValue (normalise w).1 = levelValue w) ∧
    ((normalise w).2 ≠ none → (normalise w) = (trueZero, some .LOSS)) ∧
    ((normalise w).2 = some .LOSS ↔ 0 < levelValue w ∧ levelValue w < 2048)) ∧
  (∀ a b : LevelWord, lawfulWord a = true → lawfulWord b = true →
    (compareLevels a b = .lt ↔ levelValue a < levelValue b) ∧
    (compareLevels a b = .gt ↔ levelValue b < levelValue a) ∧ (compareLevels a b = .eq ↔ a = b)) ∧
  (∀ x lo hi : LevelWord, lawfulWord x = true → lawfulWord lo = true → lawfulWord hi = true →
    clampLevel x lo hi = (if levelValue x < levelValue lo then lo
      else if levelValue hi < levelValue x then hi else x)) ∧
  ∀ g : LevelWord, lawfulWord g = true → fix g =
    (min (levelValue g / 8192) 4095,
      if 4096 * 8192 ≤ levelValue g then some .CLIP
      else if g ≠ trueZero ∧ g.e = 0 then some .LOSS else none)

/-- R117, R119, R120, R121, R122, R123: a product or quotient of lawful words is lawful; with no condition
it is the exact value truncated to the mantissa kept; beyond the largest word it is OVER with e7 M8,191;
below the smallest it is UNDER with true zero or e0 M2,048 by the policy; a divisor of true zero gives no
result with DIVIDE; multiply does not depend on the order of its operands. -/
def Obligations.ProductsAndQuotientsAreTruncated : Prop :=
  (∀ (policy : Policy) (x y r : LevelWord) (c : Option Condition), lawfulWord x = true →
    lawfulWord y = true → multiply policy x y = (r, c) →
    lawfulWord r = true ∧ multiply policy y x = (r, c) ∧
    (c = none → levelValue r * 2 ^ 25 ≤ levelValue x * levelValue y ∧
      (r ≠ trueZero → levelValue x * levelValue y < (levelValue r + 4 ^ r.e) * 2 ^ 25) ∧
      (r = trueZero → x = trueZero ∨ y = trueZero)) ∧
    (c = some .OVER ↔ 4 ^ 8 * 2048 * 2 ^ 25 ≤ levelValue x * levelValue y) ∧
    (c = some .UNDER ↔ x ≠ trueZero ∧ y ≠ trueZero ∧ levelValue x * levelValue y < 2048 * 2 ^ 25) ∧
    (c = some .OVER → r = ⟨7, 8191⟩) ∧
    (c = some .UNDER → r = (if policy = .flush then ⟨0, 0⟩ else ⟨0, 2048⟩)) ∧
    (c = none ∨ c = some .OVER ∨ c = some .UNDER)) ∧
  (∀ (policy : Policy) (x : LevelWord), divide policy x ⟨0, 0⟩ = (none, some .DIVIDE)) ∧
  ∀ (policy : Policy) (x y : LevelWord), lawfulWord x = true → lawfulWord y = true → y ≠ trueZero →
    ∃ r c, divide policy x y = (some r, c) ∧ lawfulWord r = true ∧
      (c = none → levelValue r * levelValue y ≤ levelValue x * 2 ^ 25 ∧
        (x ≠ trueZero → levelValue x * 2 ^ 25 < (levelValue r + 4 ^ r.e) * levelValue y) ∧
        (x = trueZero → r = trueZero)) ∧
      (x = trueZero → c = none) ∧
      (c = some .OVER → r = ⟨7, 8191⟩ ∧ 4 ^ 8 * 2048 * levelValue y ≤ levelValue x * 2 ^ 25) ∧
      (c = some .UNDER → r = (if policy = .flush then ⟨0, 0⟩ else ⟨0, 2048⟩) ∧
        levelValue x * 2 ^ 25 < 2048 * levelValue y) ∧
      (c = none ∨ c = some .OVER ∨ c = some .UNDER)

/-! ## The Channel Controller -/

/-- R135, R136, R137, R131, R133: each office write stores its normalised word and evaluates with its cause,
or evaluates nothing; limits that cross are refused, and C is clamped into new ones; a write of the master
evaluates all six channels. An evaluation offers its drive code to the line (R108, R132). Set Target
evaluates nothing, and a LOSS it meets is added with its LEVEL_ALERT. What a word outside its fields does is
log entry 27. -/
def Obligations.ChannelWritesEvaluate : Prop :=
  ∀ (q : Byte) (l : Lot) (w w' : LevelWord) (lost : Option Condition) (s : State), w.e ≤ 7 →
    w.m ≤ 8191 → normalise w = (w', lost) →
    (∃ t, exec (.setTrim q (lotNumber l) w) s = .next t ∧
      EvaluatedAs l { s.channelAt l with trim := w' } .trim (Conds.ofReport lost) s t ∧
      t.olp.slot = some { overrun := s.rdy, seq := q, answer := okWith (.word w') } ∧
      Issued l [] s t ∧ OnlySound l s t) ∧
    (∃ t v, exec (.setCorrection q (lotNumber l) w) s = .next t ∧
      v = clampLevel w' (s.channelAt l).cMin (s.channelAt l).cMax ∧
      EvaluatedAs l { s.channelAt l with corr := v } .limits (Conds.ofReport lost) s t ∧
      t.olp.slot = some { overrun := s.rdy, seq := q, answer := okWith (.word v) } ∧
      Issued l [] s t ∧ OnlySound l s t) ∧
    (∃ t, exec (.setFillLevel q (lotNumber l) w) s = .next t ∧
      EvaluatedAs l { s.channelAt l with fill := w' } .source (Conds.ofReport lost) s t ∧
      t.olp.slot = some { overrun := s.rdy, seq := q, answer := okWith (.word w') } ∧
      Issued l [] s t ∧ OnlySound l s t) ∧
    (∃ t, exec (.setDuckLevel q (lotNumber l) w) s = .next t ∧
      EvaluatedAs l { s.channelAt l with duck := w' } .duckOn (Conds.ofReport lost) s t ∧
      t.olp.slot = some { overrun := s.rdy, seq := q, answer := okWith (.word w') } ∧
      Issued l [] s t ∧ OnlySound l s t) ∧
    (∃ t, exec (.setTarget q (lotNumber l) w) s = .next t ∧
      t.channelAt l = { s.channelAt l with
        target := w', conds := (s.channelAt l).conds.union (Conds.ofReport lost) } ∧
      ((((Conds.ofReport lost).diff (s.channelAt l).conds).inter (s.channelAt l).mask).any = true →
        (t.noticeOf .levelAlert).pending = true) ∧
      (t.noticeOf .levelAlert).mask.getLsbD (l.val + 1) =
        ((s.noticeOf .levelAlert).mask.getLsbD (l.val + 1) ||
          (((Conds.ofReport lost).diff (s.channelAt l).conds).inter (s.channelAt l).mask).any) ∧
      t.lines = s.lines ∧
      t.olp.slot = some { overrun := s.rdy, seq := q, answer := okWith (.word w') } ∧
      OnlySound l s t) ∧
    (∃ t, exec (.setMaster q w) s = .next t ∧ t.master = w' ∧
      (∀ k, EvaluatedAs k (s.channelAt k) .master (Conds.ofReport lost) s t ∧ Issued k [] s t) ∧
      t.olp.slot = some { overrun := s.rdy, seq := q, answer := okWith (.word w') } ∧
      t.olp = { s.olp with slot := t.olp.slot, notices := t.olp.notices } ∧ NoticesOf s t ∧
      t = { s with olp := t.olp, lines := t.lines, channels := t.channels, master := t.master }) ∧
    (∀ b, exec (.setAutoLevel q (lotNumber l) b) s = .next (giveOffice q (okWith .none)
      (s.setChannel l { s.channelAt l with autoLevel := b }))) ∧
    (∀ v, exec (.setUnderflowPolicy q (lotNumber l) v) s = .next (match v with
      | 0 => giveOffice q (okWith .none) (s.setChannel l { s.channelAt l with policy := .flush })
      | 1 => giveOffice q (okWith .none) (s.setChannel l { s.channelAt l with policy := .floor })
      | _ => giveOffice q (refuse .outOfRange) s)) ∧
    ∀ (x x' : LevelWord) (lost' : Option Condition), x.e ≤ 7 → x.m ≤ 8191 →
      normalise x = (x', lost') →
      (compareLevels w' x' = .gt → exec (.setCorrectionLimits q (lotNumber l) w x) s =
        .next (giveOffice q (refuse .outOfRange) s)) ∧
      (compareLevels w' x' ≠ .gt → ∃ t v, exec (.setCorrectionLimits q (lotNumber l) w x) s = .next t ∧
        v = clampLevel (s.channelAt l).corr w' x' ∧
        EvaluatedAs l { s.channelAt l with cMin := w', cMax := x', corr := v } .limits
          ((Conds.ofReport lost).union (Conds.ofReport lost')) s t ∧
        t.olp.slot = some { overrun := s.rdy, seq := q, answer := okWith (.words w' x' v) } ∧
        Issued l [] s t ∧ OnlySound l s t)

/-- R138, R139: Announce starts an announcement on each lot its mask names, keying it and ducking the gain,
or only restarts the deadline of one that runs; Announce End, and the expiry at the count 0, end the ones
that run; a mask that names no lot is refused; lots not named are left alone. The line of each lot, DOWN,
idle or with room, takes the key and is offered the drive code. That the expiry row changes nothing at any
other count is the model's choice (log entry 4). -/
def Obligations.AnnouncementsKeyAndDuck : Prop :=
  (∀ (q : Byte) (mask d : Nat) (s : State), (∀ l : Lot, mask.testBit l.val = false) →
    exec (.announce q mask d) s = .next (giveOffice q (refuse .outOfRange) s) ∧
    exec (.announceEnd q mask) s = .next (giveOffice q (refuse .outOfRange) s)) ∧
  (∀ (q : Byte) (mask d : Nat) (s : State), (∃ l : Lot, mask.testBit l.val = true) →
    (∀ l : Lot, (s.lineAt l).up = false ∨ (s.lineAt l).queue.length < 7) →
    ∃ t v, exec (.announce q mask d) s = .next t ∧ v = max 5 (min d 600) ∧
      (∀ l : Lot, mask.testBit l.val = false →
        t.channelAt l = s.channelAt l ∧ t.lineAt l = s.lineAt l) ∧
      (∀ l : Lot, mask.testBit l.val = true → (s.channelAt l).announcing = true →
        t.channelAt l = { s.channelAt l with announceDeadline := some v } ∧
          t.lineAt l = s.lineAt l) ∧
      (∀ l : Lot, mask.testBit l.val = true → (s.channelAt l).announcing = false →
        EvaluatedAs l { s.channelAt l with announcing := true, announceDeadline := some v } .duckOn
          Conds.empty s t ∧ Issued l [.announceKey true] s t) ∧
      t.olp.slot = some { overrun := s.rdy, seq := q, answer := okWith (.values [some v]) } ∧
      t.olp = { s.olp with slot := t.olp.slot, notices := t.olp.notices } ∧ NoticesOf s t ∧
      t = { s with olp := t.olp, lines := t.lines, channels := t.channels }) ∧
  (∀ (q : Byte) (mask : Nat) (s : State), (∃ l : Lot, mask.testBit l.val = true) →
    (∀ l : Lot, (s.lineAt l).up = false ∨ (s.lineAt l).queue.length < 7) →
    ∃ t, exec (.announceEnd q mask) s = .next t ∧
      (∀ l : Lot, mask.testBit l.val = false ∨ (s.channelAt l).announcing = false →
        t.channelAt l = s.channelAt l ∧ t.lineAt l = s.lineAt l) ∧
      (∀ l : Lot, mask.testBit l.val = true → (s.channelAt l).announcing = true →
        EvaluatedAs l { s.channelAt l with announcing := false, announceDeadline := none } .duckOff
          Conds.empty s t ∧ Issued l [.announceKey false] s t) ∧
      t.olp.slot = some { overrun := s.rdy, seq := q, answer := okWith .none } ∧
      t.olp = { s.olp with slot := t.olp.slot, notices := t.olp.notices } ∧ NoticesOf s t ∧
      t = { s with olp := t.olp, lines := t.lines, channels := t.channels }) ∧
  ∀ (l : Lot) (s : State), (s.lineAt l).up = false ∨ (s.lineAt l).queue.length < 7 →
    ((s.channelAt l).announcing = false ∨ (s.channelAt l).announceDeadline ≠ some 0 →
      exec (.announcementExpiry l) s = .next s) ∧
    ((s.channelAt l).announcing = true → (s.channelAt l).announceDeadline = some 0 →
      ∃ t, exec (.announcementExpiry l) s = .next t ∧
      EvaluatedAs l { s.channelAt l with announcing := false, announceDeadline := none } .duckOff
        Conds.empty s t ∧ Issued l [.announceKey false] s t ∧ t.olp.slot = s.olp.slot ∧
      OnlySound l s t)

/-- R140, R141, R143: a probe report is ignored whole unless auto-level is set, the source is a projector
and no announcement runs; an accepted one corrects C by target over reading, clamped into its limits, or
leaves C with DIVIDE for a reading of true zero, and evaluates with cause PROBE. Set Alert Mask stores five
settings; Clear Conditions answers the set and empties it with the last cause. -/
def Obligations.ProbesCorrectAndConditionsClear : Prop :=
  (∀ (l : Lot) (w : LevelWord) (s : State), (s.lineAt l).up = true → w.e ≤ 7 → w.m ≤ 8191 →
    ((s.channelAt l).autoLevel = false ∨ (s.channelAt l).source = .fill ∨
      (s.channelAt l).source = .silent ∨ (s.channelAt l).announcing = true) →
    exec (.probe l w) s = .next s) ∧
  (∀ (l : Lot) (w w' : LevelWord) (lost : Option Condition) (s : State), (s.lineAt l).up = true →
    w.e ≤ 7 → w.m ≤ 8191 → normalise w = (w', lost) → (s.channelAt l).autoLevel = true →
    ((s.channelAt l).source = .projA ∨ (s.channelAt l).source = .projB) →
    (s.channelAt l).announcing = false →
    ∃ t v prior, exec (.probe l w) s = .next t ∧
      (w' = ⟨0, 0⟩ → v = (s.channelAt l).corr ∧
        prior = (Conds.ofReport lost).union (Conds.single .DIVIDE)) ∧
      (w' ≠ ⟨0, 0⟩ → ∃ ratio c1 c2 r,
        divide (s.channelAt l).policy (s.channelAt l).target w' = (some ratio, c1) ∧
        multiply (s.channelAt l).policy (s.channelAt l).corr ratio = (r, c2) ∧
        v = clampLevel r (s.channelAt l).cMin (s.channelAt l).cMax ∧
        prior = (Conds.ofReport lost).union ((Conds.ofReport c1).union (Conds.ofReport c2))) ∧
      EvaluatedAs l { s.channelAt l with corr := v } .probe prior s t ∧ Issued l [] s t ∧
      t.olp.slot = s.olp.slot ∧ OnlySound l s t) ∧
  (∀ (q : Byte) (l : Lot) (m : Nat) (s : State), exec (.setAlertMask q (lotNumber l) m) s =
    .next (giveOffice q (okWith .none) (s.setChannel l { s.channelAt l with
      mask := { hasOver := m.testBit 0, hasUnder := m.testBit 1, hasDivide := m.testBit 2,
                hasClip := m.testBit 3, hasLoss := m.testBit 4 } }))) ∧
  ∀ (q : Byte) (l : Lot) (s : State), exec (.clearConditions q (lotNumber l)) s =
    .next (giveOffice q (okWith (.conds (s.channelAt l).conds)) (s.setChannel l { s.channelAt l with
      conds := { hasOver := false, hasUnder := false, hasDivide := false, hasClip := false,
                 hasLoss := false }
      lastCause := none }))

/-! ## The Order Table and the Kitchen Dispatcher -/

/-- R148, R166, R180, R181, R169, R170: the order, price, window, queue and station reads answer the records
as they stand and change nothing else; Set Price clamps and lists; SOLD_OUT and BACK_IN, from the office or a
station, write the available flag of a known item; and a station outside 1 to 4 is refused. That Read Prices
with the first item above the last is refused OUT_OF_RANGE, and where two orders of one placement sequence
stand in Orders of Tag, are the model's choices (log entries 21 and 40). The order read-out is laid out as
"central layouts" gives. -/
def Obligations.OrderReadsAndPricesAnswerTheTables : Prop :=
  (∀ (n : Nat) (o : OrderRec), (dataBytes (.order n o)).map BitVec.toNat =
    [n / 256 % 256, n % 256,
      match o.state with
        | .draft => 0
        | .held => 1
        | .placed => 2
        | .inPrep => 3
        | .ready => 4
        | .unclaimed => 5,
      match o.source with
        | .post => 0
        | .handheld => 1
        | .office => 2,
      (if o.tag = none then 0 else 1) + (if o.level = none then 0 else 2) +
        (if o.station = none then 0 else 4) + (if o.draftDeadline = none then 0 else 8),
      o.tag.getD 0 / 256 % 256, o.tag.getD 0 % 256, o.level.getD 0 % 256,
      o.seq.getD 0 / 16777216 % 256, o.seq.getD 0 / 65536 % 256, o.seq.getD 0 / 256 % 256,
      o.seq.getD 0 % 256, o.total / 256 % 256, o.total % 256,
      o.placedTime.getD 0 / 65536 % 256, o.placedTime.getD 0 / 256 % 256, o.placedTime.getD 0 % 256,
      o.lastRaise.getD 0 / 65536 % 256, o.lastRaise.getD 0 / 256 % 256, o.lastRaise.getD 0 % 256,
      o.station.getD 0 % 256, o.draftDeadline.getD 0 / 256 % 256, o.draftDeadline.getD 0 % 256,
      o.lines.length % 256, 0] ++ o.lines.flatMap fun x =>
        [x.item % 256, x.qty % 256, x.price / 256 % 256, x.price % 256]) ∧
  ∀ (q : Byte) (s : State),
    (∀ n, exec (.readOrder q n) s = .next (giveOffice q (match s.orderAt n with
      | some o => okWith (.order n o)
      | none => refuse .noSuch) s)) ∧
    (∀ tag, exec (.ordersOfTag q tag) s = .next (giveOffice q
      (if s.passAt tag = none then refuse .noSuch
      else okWith (.orders (placedOrdersOf s tag ++ draftsOf s tag))) s)) ∧
    (∀ first last, exec (.readPrices q first last) s = .next (giveOffice q
      (if 1 ≤ first ∧ first ≤ last ∧ last ≤ 127 then
        okWith (.prices ((List.range (last + 1 - first)).map fun i => s.priceAt (first + i)))
      else refuse .outOfRange) s)) ∧
    (∀ l : Lot, exec (.readLotWindow q (lotNumber l)) s = .next (giveOffice q (okWith (.window
      (s.lotAt l).window (s.lotAt l).postLevel (s.lotAt l).handLevel (s.lotAt l).rushLevel)) s)) ∧
    exec (.readQueue q) s = .next (giveOffice q (okWith (.queue (s.queue.map (queueView s))
      (s.held.map (queueView s)) s.agingPeriod s.agingCount)) s) ∧
    (∀ k : Fin 4, exec (.readStation q (k.val + 1)) s = .next (giveOffice q (okWith (.station
      (s.stationAt k).online (s.stationAt k).baseFloor
      (match (s.stationAt k).stack with
        | [] => (s.stationAt k).baseFloor
        | n :: _ => levelIn s.orders n)
      ((s.stationAt k).stack.reverse.map (stackView s)))) s)) ∧
    (∀ k v, k = 0 ∨ 4 < k →
      ∀ i ∈ ([.readStation q k, .setBaseFloor q k v] : List Instr),
        exec i s = .next (giveOffice q (refuse .outOfRange) s)) ∧
    (∀ item price, exec (.setPrice q item price) s = .next
      (if 1 ≤ item ∧ item ≤ 127 then
        giveOffice q (okWith (.values [some (min price 9999)])) (s.setPriceRec item
          { listed := true, price := min price 9999,
            available := if (s.priceAt item).listed then (s.priceAt item).available else true })
      else giveOffice q (refuse .outOfRange) s)) ∧
    ∀ (item : Nat) (k : Fin 4) (g v : Bool), ∃ a t,
      exec (if v then .backIn (.office q) item else .soldOut (.office q) item) s =
        .next (giveOffice q a t) ∧
      ((s.unitAt serviceLoop (k.val + 7)).pending = none →
        exec (if v then .backIn (.station (k.val + 1) g) item
          else .soldOut (.station (k.val + 1) g) item) s =
          .next (slotted (k.val + 7) g none a t)) ∧
      (a, t) = (if 1 ≤ item ∧ item ≤ 127 ∧ (s.priceAt item).listed = true then
          (okWith .none, s.setPriceRec item { s.priceAt item with available := v })
        else (refuse .noSuch, s))

/-- R151, R147, R152, R153, R145: the eight tests of a KEY_LINE in order, each with its display and the
answer the office gets; the first line starts a draft under the next order number, a later one is appended;
KEY_CANCEL, and the draft deadline at the count 0, free it, in a session that is not CLOSING. The next order
number is the first from the order sequence on, stepping from 999 to 1, that no order has. That the expiry
row changes nothing at any other count is the model's choice (log entry 4), and that the stall of an expired
draft is its pass's stall is log entry 17. -/
def Obligations.DraftsAreKeyedCancelledAndTimedOut : Prop :=
  (∀ (q : Byte) (l : Lot) (n item qty : Nat) (s : State), 1 ≤ n → n ≤ 384 → ∃ t code why,
    exec (.keyLine .post (lotNumber l) n item qty) s = .next t ∧
    exec (.keyLine (.office q) (lotNumber l) n item qty) s =
      .next (giveOffice q { status := why, data := .none } t) ∧
    (t.stallAt l n).display = some code ∧
    (code ≠ 41 → t = s.setStall l n { s.stallAt l n with display := some code }) ∧
    (code, why) =
      (if (s.stallAt l n).state ≠ .occupied then (20, Status.badState)
      else if (s.lotAt l).window = .closed then (39, .windowClosed)
      else if ¬(1 ≤ item ∧ item ≤ 127 ∧ (s.priceAt item).listed = true) then (45, .noSuch)
      else if qty < 1 ∨ 9 < qty then (45, .outOfRange)
      else if (s.priceAt item).available = false then (46, .soldOut)
      else if 8 ≤ (draftLines s (s.stallAt l n)).length then (47, .lineLimit)
      else if 65535 < linesTotal (draftLines s (s.stallAt l n)) + qty * (s.priceAt item).price then
        (47, .totalLimit)
      else if draftOf s (s.stallAt l n) = none ∧ 512 ≤ s.orders.length then (47, .tableFull)
      else (41, .ok))) ∧
  (∀ (l : Lot) (n item qty : Nat) (s : State), 1 ≤ n → n ≤ 384 →
    (s.stallAt l n).state = .occupied → (s.lotAt l).window ≠ .closed → 1 ≤ item → item ≤ 127 →
    (s.priceAt item).listed = true → (s.priceAt item).available = true → 1 ≤ qty → qty ≤ 9 →
    (∀ d, (s.stallAt l n).draft = some d → ∀ o, s.orderAt d = some o → o.lines.length < 8 ∧
      linesTotal o.lines + qty * (s.priceAt item).price ≤ 65535 →
      ∃ t, exec (.keyLine .post (lotNumber l) n item qty) s = .next t ∧
        t.orderAt d = some { o with
          lines := o.lines ++ [{ item := item, qty := qty, price := (s.priceAt item).price }]
          total := linesTotal o.lines + qty * (s.priceAt item).price } ∧
        (∀ m, m ≠ d → t.orderAt m = s.orderAt m) ∧
        t = { s.setStall l n { s.stallAt l n with display := some 41 } with orders := t.orders }) ∧
    ((s.stallAt l n).draft = none → s.orders.length < 512 →
      qty * (s.priceAt item).price ≤ 65535 →
      ∃ t, exec (.keyLine .post (lotNumber l) n item qty) s = .next t ∧
        t.orderAt (nextOrderNumber s) = some
          { state := .draft, tag := (s.stallAt l n).tag, source := .post, level := none, seq := none,
            lines := [{ item := item, qty := qty, price := (s.priceAt item).price }],
            total := qty * (s.priceAt item).price, placedTime := none, lastRaise := none,
            station := none, draftDeadline := some 300 } ∧
        (∀ m, m ≠ nextOrderNumber s → t.orderAt m = s.orderAt m) ∧
        (t.stallAt l n) = { s.stallAt l n with
          draft := some (nextOrderNumber s), display := some 41 } ∧
        (∀ k m, ¬(k = l ∧ m = n) → t.stallAt k m = s.stallAt k m) ∧
        t.olp = { s.olp with orderSeq :=
          if 999 ≤ nextOrderNumber s then 1 else nextOrderNumber s + 1 } ∧
        t = { s with olp := t.olp, orders := t.orders, stalls := t.stalls })) ∧
  (∀ (q : Byte) (l : Lot) (n : Nat) (s : State), 1 ≤ n → n ≤ 384 → draftOf s (s.stallAt l n) = none →
    exec (.keyCancel (.office q) (lotNumber l) n) s = .next (giveOffice q (refuse .badState)
      (s.setStall l n { s.stallAt l n with display := some 20 }))) ∧
  (∀ (l : Lot) (n d : Nat) (o : OrderRec) (s : State), 1 ≤ n → n ≤ 384 → s.olp.session ≠ .closing →
    (s.stallAt l n).draft = some d → s.orderAt d = some o →
    ∃ t, exec (.keyCancel .post (lotNumber l) n) s = .next t ∧ t.orderAt d = none ∧
      (∀ m, m ≠ d → t.orderAt m = s.orderAt m) ∧
      t.stallAt l n = { s.stallAt l n with draft := none, display := some 44 } ∧
      (∀ k m, ¬(k = l ∧ m = n) → t.stallAt k m = s.stallAt k m) ∧
      t = { s with orders := t.orders, stalls := t.stalls }) ∧
  (∀ s : State, s.orders.length < 512 → 1 ≤ s.olp.orderSeq → s.olp.orderSeq ≤ 999 →
    1 ≤ nextOrderNumber s ∧ nextOrderNumber s ≤ 999 ∧ s.orderAt (nextOrderNumber s) = none ∧
    ∃ k, nextOrderNumber s = (fun n => if n < 999 then n + 1 else 1)^[k] s.olp.orderSeq ∧
      ∀ j < k, s.orderAt ((fun n => if n < 999 then n + 1 else 1)^[j] s.olp.orderSeq) ≠ none) ∧
  (∀ (d : Nat) (s : State), (∀ o, s.orderAt d = some o → o.state ≠ .draft ∨
    o.draftDeadline ≠ some 0) → exec (.draftExpiry d) s = .next s) ∧
  ∀ (l : Lot) (n d tag : Nat) (o : OrderRec) (s : State), s.olp.session ≠ .closing →
    s.orderAt d = some o → o.state = .draft → o.draftDeadline = some 0 → o.tag = some tag →
    stallOfTag s tag = some (l, n) →
    ∃ t, exec (.draftExpiry d) s = .next t ∧ t.orderAt d = none ∧
      (∀ m, m ≠ d → t.orderAt m = s.orderAt m) ∧
      t.stallAt l n = { s.stallAt l n with draft := none, display := some 24 } ∧
      (∀ k m, ¬(k = l ∧ m = n) → t.stallAt k m = s.stallAt k m) ∧
      t = { s with orders := t.orders, stalls := t.stalls }

/-- R152, R155, R156, R157, R158: a KEY_SUBMIT places the stall's draft as the window and the
intermission flag say; the office's PLACE is tested in order and creates its order HELD or PLACED; a
handheld's PLACE is tested in order too, and of a PARKED pass is PLACED at the handheld or the rush level.
Each takes the placement sequence, enters the queue or held list and relamps the pass's stall. The lamp of
a stall, and the first line of a list that fails its tests, are as R158 and R155 give. That the position of
that line counts from 1, and that an order enters behind one of its level and placement sequence, is the
model's choice (log entries 35 and 40), and that the office's PLACE is taken in every
session, CLOSED included, its reading (log entry 29). -/
def Obligations.PlacementsEnterTheKitchen : Prop :=
  (∀ (tag : Nat) (st : StallRec) (s : State),
    lampOf s.orders tag =
      (if ∃ kv ∈ s.orders, kv.2.tag = some tag ∧ kv.2.state = .ready then Lamp.flash
      else if ∃ kv ∈ s.orders, kv.2.tag = some tag ∧
        (kv.2.state = .held ∨ kv.2.state = .placed ∨ kv.2.state = .inPrep) then .steady
      else .off) ∧
    lampWanted s.orders st = (if st.state = .occupied ∨ st.state = .vacated then
      (match st.tag with
        | some u => lampOf s.orders u
        | none => .off) else .off)) ∧
  (∀ (pre post : List LineParam) (x : LineParam) (why : Status) (s : State),
    firstBadLine s 1 0 [] = none ∧ (firstBadLine s 1 0 pre = none →
      why = (if ¬(1 ≤ x.item ∧ x.item ≤ 127 ∧ (s.priceAt x.item).listed = true) then Status.noSuch
        else if x.qty < 1 ∨ 9 < x.qty then .outOfRange
        else if (s.priceAt x.item).available = false then .soldOut
        else if 65535 < linesTotal (captureLines s pre) + x.qty * (s.priceAt x.item).price then
          .totalLimit
        else .ok) →
      (why = .ok → firstBadLine s 1 0 (pre ++ [x]) = none) ∧
      (why ≠ .ok → firstBadLine s 1 0 (pre ++ x :: post) = some (pre.length + 1, why)))) ∧
  (∀ (q : Byte) (l : Lot) (n : Nat) (b : Bool) (s : State), 1 ≤ n → n ≤ 384 →
    ((s.stallAt l n).state ≠ .occupied ∨ draftOf s (s.stallAt l n) = none →
      exec (.keySubmit (.office q) (lotNumber l) n b) s = .next (giveOffice q (refuse .badState)
        (s.setStall l n { s.stallAt l n with display := some 20 }))) ∧
    ((s.stallAt l n).state = .occupied → draftOf s (s.stallAt l n) ≠ none →
      (s.lotAt l).window = .closed →
      exec (.keySubmit (.office q) (lotNumber l) n b) s = .next (giveOffice q (refuse .windowClosed)
        (s.setStall l n { s.stallAt l n with display := some 39 })))) ∧
  (∀ (l : Lot) (n d tag : Nat) (b : Bool) (o : OrderRec) (s : State), 1 ≤ n → n ≤ 384 →
    (s.stallAt l n).state = .occupied → (s.stallAt l n).draft = some d → s.orderAt d = some o →
    (s.lotAt l).window ≠ .closed → o.tag = some tag → (s.stallAt l n).tag = some tag →
    stallOfTag s tag = some (l, n) →
    ∃ t, exec (.keySubmit .post (lotNumber l) n b) s = .next t ∧
      PlacedAs d { o with
        state := if (s.lotAt l).window = .open ∧ b = true then .held else .placed
        level := some (if (s.lotAt l).window = .rush then (s.lotAt l).rushLevel
          else if b = true then 0 else (s.lotAt l).postLevel) } s t ∧
      t.stallAt l n = { s.stallAt l n with
        draft := none, lampDesired := lampOf t.orders tag
        display := some (if (s.lotAt l).window = .open ∧ b = true then 43 else 42) } ∧
      (∀ k m, ¬(k = l ∧ m = n) → t.stallAt k m = s.stallAt k m) ∧
      t.olp = { s.olp with placeSeq := t.olp.placeSeq } ∧
      t = { s with
        olp := t.olp, orders := t.orders, stalls := t.stalls, queue := t.queue, held := t.held }) ∧
  (∀ (q : Byte) (tag : Option Nat) (level : Nat) (lines : List LineParam) (s : State), ∃ why bad,
    (why ≠ .ok → exec (.place (.office q) tag level lines) s = .next (giveOffice q
      { status := why, data := if bad = 0 then .none else .values [some bad] } s)) ∧
    (why, bad) =
      (if tag.map s.passAt = some none then (Status.noSuch, 0)
      else if 7 < level ∨ lines = [] then (.outOfRange, 0)
      else if 8 < lines.length then (.lineLimit, 0)
      else match firstBadLine s 1 0 lines with
        | some (pos, reason) => (reason, pos)
        | none => if 512 ≤ s.orders.length then (.tableFull, 0) else (.ok, 0))) ∧
  (∀ (q : Byte) (tag : Option Nat) (level : Nat) (lines : List LineParam) (s : State),
    (∀ t, tag = some t → s.passAt t ≠ none) → level ≤ 7 → lines ≠ [] → lines.length ≤ 8 →
    firstBadLine s 1 0 lines = none → s.orders.length < 512 →
    ∃ t, exec (.place (.office q) tag level lines) s = .next t ∧
      PlacedAs (nextOrderNumber s)
        { state := if level = 0 then .held else .placed, tag := tag, source := .office,
          level := some level, seq := none, lines := captureLines s lines,
          total := linesTotal (captureLines s lines), placedTime := none, lastRaise := none,
          station := none, draftDeadline := none } s t ∧
      Relamped (tag.bind (stallOfTag s)) s t ∧
      t.olp = { s.olp with
        orderSeq := if 999 ≤ nextOrderNumber s then 1 else nextOrderNumber s + 1
        placeSeq := t.olp.placeSeq
        slot := some { overrun := s.rdy, seq := q, answer := okWith (.placed none (nextOrderNumber s)
          level (linesTotal (captureLines s lines)) (if level = 0 then .held else .placed)) } } ∧
      t = { s with
        olp := t.olp, orders := t.orders, stalls := t.stalls, queue := t.queue, held := t.held }) ∧
  (∀ (h : Nat) (tag : Option Nat) (level : Nat) (g : Bool) (lines : List LineParam) (s : State),
    (s.unitAt serviceLoop 11).pending = none → ∃ why bad,
    (why ≠ .ok → exec (.place (.handheld h g) tag level lines) s = .next (slotted 11 g (some h)
      { status := why, data := if bad = 0 then .none else .values [some bad] } s)) ∧
    (why, bad) =
      (if h = 0 ∨ 16 < h then (Status.outOfRange, 0)
      else match tag.bind s.passAt with
        | none => (.noSuch, 0)
        | some p =>
          if p.state ≠ .parked then (.badState, 0)
          else if (s.lotAt p.lot).window = .closed then (.windowClosed, 0)
          else if lines = [] then (.outOfRange, 0)
          else if 8 < lines.length then (.lineLimit, 0)
          else match firstBadLine s 1 0 lines with
            | some (pos, reason) => (reason, pos)
            | none => if 512 ≤ s.orders.length then (.tableFull, 0) else (.ok, 0))) ∧
  ∀ (h tag level : Nat) (g : Bool) (p : PassRec) (lines : List LineParam) (s : State), 1 ≤ h → h ≤ 16 →
    (s.unitAt serviceLoop 11).pending = none → s.passAt tag = some p → p.state = .parked →
    (s.lotAt p.lot).window ≠ .closed → level = (if (s.lotAt p.lot).window = .rush
      then (s.lotAt p.lot).rushLevel else (s.lotAt p.lot).handLevel) → 1 ≤ level → lines ≠ [] →
    lines.length ≤ 8 → firstBadLine s 1 0 lines = none → s.orders.length < 512 →
    ∃ t, exec (.place (.handheld h g) (some tag) 0 lines) s = .next (slotted 11 g (some h)
        (okWith (.placed (some h) (nextOrderNumber s) level (linesTotal (captureLines s lines))
          .placed)) t) ∧
      PlacedAs (nextOrderNumber s)
        { state := .placed, tag := some tag, source := .handheld, level := some level, seq := none,
          lines := captureLines s lines, total := linesTotal (captureLines s lines),
          placedTime := none, lastRaise := none, station := none, draftDeadline := none } s t ∧
      Relamped (stallOfTag s tag) s t ∧
      t.olp = { s.olp with
        orderSeq := if 999 ≤ nextOrderNumber s then 1 else nextOrderNumber s + 1
        placeSeq := t.olp.placeSeq } ∧
      t = { s with
        olp := t.olp, orders := t.orders, stalls := t.stalls, queue := t.queue, held := t.held }

/-- R159, R160, R161, R162, R21, R158: DELIVER charges the pass's tab with the total and frees the order;
PAY lowers the tab and answers the change due; Cancel Order and DISCARD free the order in the states that
allow it; each is refused, with nothing changed, on the tests of its rule. In CLOSING with no live pass, the
last order freed closes the session with its notice (R188); elsewhere the session is not CLOSING. That the
stall of a cancelled draft is its pass's stall is log entry 17; that a DELIVER of a tagged order naming a
lot or stall out of its range is refused OUT_OF_RANGE at its third test, and that the stall of an untagged
one is not read, log entry 21. -/
def Obligations.OrdersAreDeliveredPaidAndGivenUp : Prop :=
  (∀ (q : Byte) (n : Nat) (stall : Option (Nat × Nat)) (s : State), ∃ why,
    (why ≠ .ok → exec (.deliver (.office q) n stall) s = .next (giveOffice q (refuse why) s)) ∧
    why = (match s.orderAt n with
      | none => Status.noSuch
      | some o =>
        if o.state ≠ .ready then .badState
        else match o.tag with
          | none => .ok
          | some tag => match stall with
            | none => .wrongStall
            | some (a, k) =>
              if a = 0 ∨ 6 < a ∨ k = 0 ∨ 384 < k then .outOfRange
              else if (stallOfTag s tag).map (fun x => (lotNumber x.1, x.2)) = some (a, k) then .ok
              else .wrongStall)) ∧
  (∀ (h n : Nat) (g : Bool) (stall : Option (Nat × Nat)) (s : State),
    (s.unitAt serviceLoop 11).pending = none → ∃ why,
    (why ≠ .ok → exec (.deliver (.handheld h g) n stall) s =
      .next (slotted 11 g (some h) (refuse why) s)) ∧
    why = (if h = 0 ∨ 16 < h then Status.outOfRange
      else match s.orderAt n with
      | none => Status.noSuch
      | some o =>
        if o.state ≠ .ready then .badState
        else match o.tag with
          | none => .wrongStall
          | some tag => match stall with
            | none => .wrongStall
            | some (a, k) =>
              if a = 0 ∨ 6 < a ∨ k = 0 ∨ 384 < k then .outOfRange
              else if (stallOfTag s tag).map (fun x => (lotNumber x.1, x.2)) = some (a, k) then .ok
              else .wrongStall)) ∧
  (∀ (q : Byte) (n : Nat) (stall : Option (Nat × Nat)) (o : OrderRec) (s : State),
    s.olp.session ≠ .closing → s.orderAt n = some o → o.state = .ready → o.tag = none →
    ∃ t, exec (.deliver (.office q) n stall) s =
        .next (giveOffice q (okWith (.values [some n, some o.total, none])) t) ∧
      t.orderAt n = none ∧ (∀ m, m ≠ n → t.orderAt m = s.orderAt m) ∧
      t = { s with orders := t.orders }) ∧
  (∀ (q : Byte) (n tag k h : Nat) (g : Bool) (l : Lot) (p : PassRec) (o : OrderRec) (s : State),
    s.olp.session ≠ .closing → s.orderAt n = some o → o.state = .ready → o.tag = some tag →
    s.passAt tag = some p → p.state = .parked → p.lot = l → p.stall = some k → 1 ≤ k → k ≤ 384 →
    1 ≤ h → h ≤ 16 → (s.unitAt serviceLoop 11).pending = none →
    ∃ t, (∃ a, a = okWith (.values [some n, some o.total, some (min (p.tab + o.total) 999999)]) ∧
        exec (.deliver (.office q) n (some (lotNumber l, k))) s = .next (giveOffice q a t) ∧
        exec (.deliver (.handheld h g) n (some (lotNumber l, k))) s =
          .next (slotted 11 g (some h) a t)) ∧
      t.passAt tag = some { p with tab := min (p.tab + o.total) 999999 } ∧
      (∀ u, u ≠ tag → t.passAt u = s.passAt u) ∧
      t.orderAt n = none ∧ (∀ m, m ≠ n → t.orderAt m = s.orderAt m) ∧
      Relamped (some (l, k)) s t ∧
      (999999 < p.tab + o.total → (t.noticeOf .tabSaturated).pending = true ∧
        (t.noticeOf .tabSaturated).mask.getLsbD (l.val + 1) = true) ∧
      (p.tab + o.total < 999999 → t.olp = s.olp) ∧
      t = { s with olp := t.olp, passes := t.passes, orders := t.orders, stalls := t.stalls }) ∧
  (∀ (q : Byte) (h tag amount : Nat) (g : Bool) (s : State), 1 ≤ h → h ≤ 16 →
    (s.unitAt serviceLoop 11).pending = none → ∃ a t,
    exec (.pay (.office q) tag amount) s = .next (giveOffice q a t) ∧
    exec (.pay (.handheld h g) tag amount) s = .next (slotted 11 g (some h) a t) ∧
    (a, t) = (if 999999 < amount then (refuse .outOfRange, s)
      else match s.passAt tag with
        | none => (refuse .noSuch, s)
        | some p => (okWith (.values [some (p.tab - amount), some (amount - p.tab)]),
            s.setPass tag { p with tab := p.tab - amount }))) ∧
  (∀ (q : Byte) (n : Nat) (s : State),
    ((s.orderAt n = none → exec (.cancelOrder q n) s = .next (giveOffice q (refuse .noSuch) s)) ∧
      (∀ o, s.orderAt n = some o → o.state = .inPrep ∨ (o.state = .unclaimed ∧ o.station ≠ none) →
        exec (.cancelOrder q n) s = .next (giveOffice q (refuse .badState) s))) ∧
    (s.orderAt n = none →
      exec (.discard (.office q) n) s = .next (giveOffice q (refuse .noSuch) s)) ∧
    ∀ o, s.orderAt n = some o → o.state ≠ .unclaimed ∨ o.station ≠ none →
      exec (.discard (.office q) n) s = .next (giveOffice q (refuse .badState) s)) ∧
  (∀ (q : Byte) (n : Nat) (o : OrderRec) (k : Fin 4) (g : Bool) (s : State),
    s.olp.session ≠ .closing → s.orderAt n = some o → o.state = .unclaimed → o.station = none →
    (s.unitAt serviceLoop (k.val + 7)).pending = none →
    ∃ t, exec (.discard (.office q) n) s = .next (giveOffice q (okWith .none) t) ∧
      exec (.discard (.station (k.val + 1) g) n) s =
        .next (slotted (k.val + 7) g none (okWith .none) t) ∧
      exec (.cancelOrder q n) s = .next (giveOffice q (okWith .none) t) ∧
      t.orderAt n = none ∧ (∀ m, m ≠ n → t.orderAt m = s.orderAt m) ∧
      t = { s with orders := t.orders }) ∧
  (∀ (q : Byte) (n : Nat) (o : OrderRec) (s : State), s.olp.session = .closing → s.passes = [] →
    s.orderAt n = some o →
    ∀ i ∈ ((if o.state ≠ .inPrep ∧ (o.state = .unclaimed → o.station = none) then
        [.cancelOrder q n] else []) ++
      (if o.state = .unclaimed ∧ o.station = none then [.discard (.office q) n] else []) ++
      (if o.state = .ready ∧ o.tag = none then [.deliver (.office q) n none] else []) : List Instr),
      ∃ t, exec i s = .next t ∧ t.orderAt n = none ∧ (∀ m, m ≠ n → t.orderAt m = s.orderAt m) ∧
        ((∀ kv ∈ s.orders, kv.1 = n) → t.olp.session = .closed ∧ t.orders = [] ∧
          (t.noticeOf .sessionClosed).pending = true ∧
          (t.noticeOf .sessionClosed).mask.getLsbD 0 = true) ∧
        ((∃ m, m ≠ n ∧ s.orderAt m ≠ none) → t.olp.session = .closing ∧
          t.olp.notices = s.olp.notices)) ∧
  ∀ (q : Byte) (n : Nat) (o : OrderRec) (s : State), s.olp.session ≠ .closing →
    s.orderAt n = some o → o.state ≠ .inPrep → o.state ≠ .unclaimed →
    ∃ t, exec (.cancelOrder q n) s = .next (giveOffice q (okWith .none) t) ∧
      t.orderAt n = none ∧ (∀ m, m ≠ n → t.orderAt m = s.orderAt m) ∧
      (∀ m, m ∈ t.queue ↔ m ∈ s.queue ∧ (o.state = .placed → m ≠ n)) ∧
      (∀ m, m ∈ t.held ↔ m ∈ s.held ∧ (o.state = .held → m ≠ n)) ∧
      (∀ l k, t.stallAt l k =
        if stallOfOrder s o = some (l, k) then { s.stallAt l k with
          draft := if o.state = .draft then none else (s.stallAt l k).draft
          display := if o.state = .draft then some 44 else (s.stallAt l k).display
          lampDesired := lampWanted t.orders (s.stallAt l k) }
        else s.stallAt l k) ∧
      t = { s with orders := t.orders, stalls := t.stalls, queue := t.queue, held := t.held }

/-- R171, R173, R174, R158: TAKE runs its tests in order and moves the head of the queue onto the
station's stack; READY pops the top of the stack, and is refused NOT_TOP elsewhere; REMAKE sends a READY
order back at level 7 with a new sequence. A station unit gets in its slot what the office gets. -/
def Obligations.TakeReadyAndRemakeMoveOrders : Prop :=
  (∀ (q : Byte) (k : Nat) (s : State), k = 0 ∨ 4 < k →
    exec (.take (.office q) k) s = .next (giveOffice q (refuse .outOfRange) s)) ∧
  (∀ (q : Byte) (k : Fin 4) (x : Nat) (g : Bool) (s : State),
    (s.unitAt serviceLoop (k.val + 7)).pending = none → ∃ why,
    (why ≠ .ok → exec (.take (.office q) (k.val + 1)) s = .next (giveOffice q (refuse why) s) ∧
      exec (.take (.station (k.val + 1) g) x) s =
        .next (slotted (k.val + 7) g none (refuse why) s)) ∧
    why = (if 3 ≤ (s.stationAt k).stack.length then Status.stationFull
      else match s.queue with
        | [] => .nothingEligible
        | n :: _ =>
          if s.orderAt n = none then .nothingEligible
          else if levelIn s.orders n ≤ (match (s.stationAt k).stack with
            | [] => (s.stationAt k).baseFloor
            | m :: _ => levelIn s.orders m) then .nothingEligible
          else if levelIn s.orders n ≤ (s.stationAt k).baseFloor then .nothingEligible
          else .ok)) ∧
  (∀ (q : Byte) (k : Fin 4) (x n level : Nat) (rest : List Nat) (g : Bool) (o : OrderRec) (s : State),
    (s.stationAt k).stack.length < 3 → s.queue = n :: rest → s.orderAt n = some o →
    o.level = some level → (s.stationAt k).baseFloor < level →
    (∀ m, (s.stationAt k).stack.head? = some m → levelIn s.orders m < level) →
    (s.unitAt serviceLoop (k.val + 7)).pending = none →
    ∃ t, (∃ a, a = okWith (.taken n (some level) o.tag (stallOfOrder s o)
          (o.lines.map fun x => { item := x.item, qty := x.qty })) ∧
        exec (.take (.office q) (k.val + 1)) s = .next (giveOffice q a t) ∧
        exec (.take (.station (k.val + 1) g) x) s = .next (slotted (k.val + 7) g none a t)) ∧
      t.queue = rest ∧
      t.orderAt n = some { o with state := .inPrep, station := some (k.val + 1) } ∧
      (∀ m, m ≠ n → t.orderAt m = s.orderAt m) ∧
      t.stationAt k = { s.stationAt k with stack := n :: (s.stationAt k).stack } ∧
      (∀ j, j ≠ k → t.stationAt j = s.stationAt j) ∧
      Relamped (stallOfOrder s o) s t ∧
      t = { s with
        queue := t.queue, orders := t.orders, stations := t.stations, stalls := t.stalls }) ∧
  (∀ (q : Byte) (n : Nat) (s : State),
    (s.orderAt n = none → exec (.ready (.office q) n) s = .next (giveOffice q (refuse .noSuch) s)) ∧
    ∀ o, s.orderAt n = some o →
      (∀ k : Fin 4, o.station = some (k.val + 1) → (s.stationAt k).stack.head? ≠ some n) →
      exec (.ready (.office q) n) s = .next (giveOffice q (refuse .notTop) s)) ∧
  (∀ (k : Fin 4) (n : Nat) (g : Bool) (o : OrderRec) (s : State),
    (s.unitAt serviceLoop (k.val + 7)).pending = none →
    (s.orderAt n = none → exec (.ready (.station (k.val + 1) g) n) s =
      .next (slotted (k.val + 7) g none (refuse .noSuch) s)) ∧
    (s.orderAt n = some o → (s.stationAt k).stack.head? ≠ some n →
      exec (.ready (.station (k.val + 1) g) n) s =
        .next (slotted (k.val + 7) g none (refuse .notTop) s))) ∧
  (∀ (q : Byte) (k : Fin 4) (n : Nat) (rest : List Nat) (g : Bool) (o : OrderRec) (s : State),
    s.orderAt n = some o → o.station = some (k.val + 1) → (s.stationAt k).stack = n :: rest →
    o.state = .inPrep ∨ o.state = .unclaimed → (s.unitAt serviceLoop (k.val + 7)).pending = none →
    ∃ t, (∃ a, a = okWith (if o.state = .inPrep then .readied n .ready o.tag (stallOfOrder s o)
          else .readied n .unclaimed none none) ∧
        exec (.ready (.office q) n) s = .next (giveOffice q a t) ∧
        exec (.ready (.station (k.val + 1) g) n) s = .next (slotted (k.val + 7) g none a t)) ∧
      t.orderAt n = some { o with
        state := if o.state = .inPrep then .ready else .unclaimed, station := none } ∧
      (∀ m, m ≠ n → t.orderAt m = s.orderAt m) ∧
      t.stationAt k = { s.stationAt k with stack := rest } ∧
      (∀ j, j ≠ k → t.stationAt j = s.stationAt j) ∧
      Relamped (if o.state = .inPrep then stallOfOrder s o else none) s t ∧
      t = { s with orders := t.orders, stations := t.stations, stalls := t.stalls }) ∧
  (∀ (q : Byte) (k : Fin 4) (n : Nat) (g : Bool) (s : State),
    (s.unitAt serviceLoop (k.val + 7)).pending = none → ∃ why,
    (why ≠ .ok → exec (.remake (.office q) n) s = .next (giveOffice q (refuse why) s) ∧
      exec (.remake (.station (k.val + 1) g) n) s =
        .next (slotted (k.val + 7) g none (refuse why) s)) ∧
    why = (match s.orderAt n with
      | none => Status.noSuch
      | some o => if o.state = .ready then .ok else .badState)) ∧
  ∀ (q : Byte) (k : Fin 4) (n : Nat) (g : Bool) (o : OrderRec) (s : State), s.orderAt n = some o →
    o.state = .ready → (s.unitAt serviceLoop (k.val + 7)).pending = none →
    ∃ t, exec (.remake (.office q) n) s = .next (giveOffice q (okWith .none) t) ∧
      exec (.remake (.station (k.val + 1) g) n) s =
        .next (slotted (k.val + 7) g none (okWith .none) t) ∧
      t.orderAt n = some { o with
        state := .placed, level := some 7, seq := some s.olp.placeSeq
        lastRaise := some s.olp.clock } ∧
      (∀ m, m ≠ n → t.orderAt m = s.orderAt m) ∧
      t.queue = insertBy (queueBefore t.orders) n s.queue ∧
      t.olp = { s.olp with
        placeSeq := if 4294967295 ≤ s.olp.placeSeq then 1 else s.olp.placeSeq + 1 } ∧
      Relamped (stallOfOrder s o) s t ∧
      t = { s with olp := t.olp, orders := t.orders, queue := t.queue, stalls := t.stalls }

/-- R175, R176, R177, R179, R167: Set Level moves a HELD or PLACED order between the held list and the
queue by its new level, and a HELD one set to 0 nowhere; Requeue Station returns a stack's IN_PREP orders to the queue and takes its
UNCLAIMED ones off; the aging timer, expiring at the count 0, raises every order of the queue at level 1
to 5 that is old enough, and restarts. Each leaves an ordered queue ordered. That the aging row changes
nothing at any other count, that Set Level tests its level before the order it names, and that an order
enters behind one of its level and placement sequence, is the model's choice (log entries 4, 37 and 40). -/
def Obligations.LevelsRequeueAndAgingReorderTheQueue : Prop :=
  (∀ (q : Byte) (n level : Nat) (s : State), (7 < level →
      exec (.setLevel q n level) s = .next (giveOffice q (refuse .outOfRange) s)) ∧
    (level ≤ 7 → s.orderAt n = none →
      exec (.setLevel q n level) s = .next (giveOffice q (refuse .noSuch) s)) ∧
    ∀ o, level ≤ 7 → s.orderAt n = some o → o.state ≠ .held → o.state ≠ .placed →
      exec (.setLevel q n level) s = .next (giveOffice q (refuse .badState) s)) ∧
  (∀ (q : Byte) (n level : Nat) (o : OrderRec) (s : State), level ≤ 7 → s.orderAt n = some o →
    o.state = .held ∨ o.state = .placed →
    ∃ t, exec (.setLevel q n level) s = .next (giveOffice q (okWith (.leveled
        { number := n, state := if level = 0 then .held else .placed, level := some level })) t) ∧
      t.orderAt n = some { o with
        state := if level = 0 then .held else .placed, level := some level
        lastRaise := some s.olp.clock } ∧
      (∀ m, m ≠ n → t.orderAt m = s.orderAt m) ∧
      t.queue = (if level = 0 then s.queue.filter fun m => m ≠ n
        else insertBy (queueBefore t.orders) n (s.queue.filter fun m => m ≠ n)) ∧
      t.held = (if level ≠ 0 then s.held.filter fun m => m ≠ n
        else if o.state = .held then s.held
        else insertBy (seqBefore t.orders) n (s.held.filter fun m => m ≠ n)) ∧
      (queueOrdered s → queueOrdered t) ∧ Relamped (stallOfOrder s o) s t ∧
      t = { s with orders := t.orders, queue := t.queue, held := t.held, stalls := t.stalls }) ∧
  (∀ (q : Byte) (k : Nat) (s : State), k = 0 ∨ 4 < k →
    exec (.requeueStation q k) s = .next (giveOffice q (refuse .outOfRange) s)) ∧
  (∀ (q : Byte) (k : Fin 4) (s : State), ∃ t,
    exec (.requeueStation q (k.val + 1)) s = .next (giveOffice q (okWith (.requeued
      ((s.stationAt k).stack.filter fun n =>
        decide ((s.orderAt n).map (fun o => o.state) = some .inPrep))
      ((s.stationAt k).stack.filter fun n =>
        decide ((s.orderAt n).map (fun o => o.state) = some .unclaimed)))) t) ∧
      t.stationAt k = { s.stationAt k with stack := [] } ∧
      (∀ j, j ≠ k → t.stationAt j = s.stationAt j) ∧
      (∀ n, t.orderAt n = (s.orderAt n).map fun o =>
        if n ∈ (s.stationAt k).stack then
          { o with state := if o.state = .inPrep then .placed else o.state, station := none }
        else o) ∧
      (∀ n, n ∈ t.queue ↔ n ∈ s.queue ∨
        (n ∈ (s.stationAt k).stack ∧ (s.orderAt n).map (fun o => o.state) = some .inPrep)) ∧
      (queueOrdered s → queueOrdered t) ∧
      (∀ l m, t.stallAt l m = s.stallAt l m ∨ (t.stallAt l m = { s.stallAt l m with
          lampDesired := lampWanted s.orders (s.stallAt l m) } ∧
        ∃ n o, n ∈ (s.stationAt k).stack ∧ s.orderAt n = some o ∧ o.state = .inPrep ∧
          stallOfOrder s o = some (l, m))) ∧
      t = { s with
        orders := t.orders, queue := t.queue, stations := t.stations, stalls := t.stalls }) ∧
  (∀ s : State, s.agingCount ≠ 0 → exec .agingExpiry s = .next s) ∧
  ∀ s : State, s.agingCount = 0 → ∃ t, exec .agingExpiry s = .next t ∧
    (∀ n, t.orderAt n = (s.orderAt n).map fun o =>
      match o.level with
      | some v =>
        if n ∈ s.queue ∧ 1 ≤ v ∧ v ≤ 5 ∧
          s.agingPeriod ≤ (s.olp.clock + 86400 - o.lastRaise.getD 0) % 86400
        then { o with level := some (v + 1), lastRaise := some s.olp.clock } else o
      | none => o) ∧
    t.queue.Perm s.queue ∧ queueOrdered t ∧ t.agingCount = s.agingPeriod ∧
    t = { s with orders := t.orders, queue := t.queue, agingCount := t.agingCount }

end
end

