-- ==== Sys2Proof/Laws/State.lean ====
section
/-! SUPPORT. One lemma per field and reader for each update of the state, so that no later proof unfolds a
record update. -/

namespace Sys2Proof.Laws

open Sys2Proof.Machine

variable (s : State)

/-! ## setLot -/

@[simp] theorem setLot_pending (l : Lot) (x : LotRec) : (s.setLot l x).pending = s.pending := rfl
@[simp] theorem setLot_olp (l : Lot) (x : LotRec) : (s.setLot l x).olp = s.olp := rfl
@[simp] theorem setLot_passes (l : Lot) (x : LotRec) : (s.setLot l x).passes = s.passes := rfl
@[simp] theorem setLot_stalls (l : Lot) (x : LotRec) : (s.setLot l x).stalls = s.stalls := rfl
@[simp] theorem setLot_untagged (l : Lot) (x : LotRec) : (s.setLot l x).untagged = s.untagged := rfl
@[simp] theorem setLot_transitLimit (l : Lot) (x : LotRec) : (s.setLot l x).transitLimit = s.transitLimit := rfl
@[simp] theorem setLot_vacateGrace (l : Lot) (x : LotRec) : (s.setLot l x).vacateGrace = s.vacateGrace := rfl
@[simp] theorem setLot_lanes (l : Lot) (x : LotRec) : (s.setLot l x).lanes = s.lanes := rfl
@[simp] theorem setLot_loops (l : Lot) (x : LotRec) : (s.setLot l x).loops = s.loops := rfl
@[simp] theorem setLot_programmes (l : Lot) (x : LotRec) : (s.setLot l x).programmes = s.programmes := rfl
@[simp] theorem setLot_booths (l : Lot) (x : LotRec) : (s.setLot l x).booths = s.booths := rfl
@[simp] theorem setLot_lines (l : Lot) (x : LotRec) : (s.setLot l x).lines = s.lines := rfl
@[simp] theorem setLot_channels (l : Lot) (x : LotRec) : (s.setLot l x).channels = s.channels := rfl
@[simp] theorem setLot_master (l : Lot) (x : LotRec) : (s.setLot l x).master = s.master := rfl
@[simp] theorem setLot_orders (l : Lot) (x : LotRec) : (s.setLot l x).orders = s.orders := rfl
@[simp] theorem setLot_prices (l : Lot) (x : LotRec) : (s.setLot l x).prices = s.prices := rfl
@[simp] theorem setLot_queue (l : Lot) (x : LotRec) : (s.setLot l x).queue = s.queue := rfl
@[simp] theorem setLot_held (l : Lot) (x : LotRec) : (s.setLot l x).held = s.held := rfl
@[simp] theorem setLot_stations (l : Lot) (x : LotRec) : (s.setLot l x).stations = s.stations := rfl
@[simp] theorem setLot_agingPeriod (l : Lot) (x : LotRec) : (s.setLot l x).agingPeriod = s.agingPeriod := rfl
@[simp] theorem setLot_agingCount (l : Lot) (x : LotRec) : (s.setLot l x).agingCount = s.agingCount := rfl
@[simp] theorem setLot_stallAt (l : Lot) (x : LotRec) (k : Lot) (m : Nat) :
    (s.setLot l x).stallAt k m = s.stallAt k m := rfl
@[simp] theorem setLot_passAt (l : Lot) (x : LotRec) (m : Nat) :
    (s.setLot l x).passAt m = s.passAt m := rfl
@[simp] theorem setLot_laneAt (l : Lot) (x : LotRec) (k : Lot) :
    (s.setLot l x).laneAt k = s.laneAt k := rfl
@[simp] theorem setLot_loopAt (l : Lot) (x : LotRec) (k : LoopId) :
    (s.setLot l x).loopAt k = s.loopAt k := rfl
@[simp] theorem setLot_unitAt (l : Lot) (x : LotRec) (k : LoopId) (m : Nat) :
    (s.setLot l x).unitAt k m = s.unitAt k m := rfl
@[simp] theorem setLot_programmeAt (l : Lot) (x : LotRec) (k : Lot) :
    (s.setLot l x).programmeAt k = s.programmeAt k := rfl
@[simp] theorem setLot_boothAt (l : Lot) (x : LotRec) (k : Lot) :
    (s.setLot l x).boothAt k = s.boothAt k := rfl
@[simp] theorem setLot_lineAt (l : Lot) (x : LotRec) (k : Lot) :
    (s.setLot l x).lineAt k = s.lineAt k := rfl
@[simp] theorem setLot_channelAt (l : Lot) (x : LotRec) (k : Lot) :
    (s.setLot l x).channelAt k = s.channelAt k := rfl
@[simp] theorem setLot_orderAt (l : Lot) (x : LotRec) (m : Nat) :
    (s.setLot l x).orderAt m = s.orderAt m := rfl
@[simp] theorem setLot_priceAt (l : Lot) (x : LotRec) (m : Nat) :
    (s.setLot l x).priceAt m = s.priceAt m := rfl
@[simp] theorem setLot_stationAt (l : Lot) (x : LotRec) (k : Fin 4) :
    (s.setLot l x).stationAt k = s.stationAt k := rfl

/-! ## setStall -/

@[simp] theorem setStall_pending (l : Lot) (n : Nat) (x : StallRec) : (s.setStall l n x).pending = s.pending := rfl
@[simp] theorem setStall_olp (l : Lot) (n : Nat) (x : StallRec) : (s.setStall l n x).olp = s.olp := rfl
@[simp] theorem setStall_passes (l : Lot) (n : Nat) (x : StallRec) : (s.setStall l n x).passes = s.passes := rfl
@[simp] theorem setStall_lots (l : Lot) (n : Nat) (x : StallRec) : (s.setStall l n x).lots = s.lots := rfl
@[simp] theorem setStall_untagged (l : Lot) (n : Nat) (x : StallRec) : (s.setStall l n x).untagged = s.untagged := rfl
@[simp] theorem setStall_transitLimit (l : Lot) (n : Nat) (x : StallRec) : (s.setStall l n x).transitLimit = s.transitLimit := rfl
@[simp] theorem setStall_vacateGrace (l : Lot) (n : Nat) (x : StallRec) : (s.setStall l n x).vacateGrace = s.vacateGrace := rfl
@[simp] theorem setStall_lanes (l : Lot) (n : Nat) (x : StallRec) : (s.setStall l n x).lanes = s.lanes := rfl
@[simp] theorem setStall_loops (l : Lot) (n : Nat) (x : StallRec) : (s.setStall l n x).loops = s.loops := rfl
@[simp] theorem setStall_programmes (l : Lot) (n : Nat) (x : StallRec) : (s.setStall l n x).programmes = s.programmes := rfl
@[simp] theorem setStall_booths (l : Lot) (n : Nat) (x : StallRec) : (s.setStall l n x).booths = s.booths := rfl
@[simp] theorem setStall_lines (l : Lot) (n : Nat) (x : StallRec) : (s.setStall l n x).lines = s.lines := rfl
@[simp] theorem setStall_channels (l : Lot) (n : Nat) (x : StallRec) : (s.setStall l n x).channels = s.channels := rfl
@[simp] theorem setStall_master (l : Lot) (n : Nat) (x : StallRec) : (s.setStall l n x).master = s.master := rfl
@[simp] theorem setStall_orders (l : Lot) (n : Nat) (x : StallRec) : (s.setStall l n x).orders = s.orders := rfl
@[simp] theorem setStall_prices (l : Lot) (n : Nat) (x : StallRec) : (s.setStall l n x).prices = s.prices := rfl
@[simp] theorem setStall_queue (l : Lot) (n : Nat) (x : StallRec) : (s.setStall l n x).queue = s.queue := rfl
@[simp] theorem setStall_held (l : Lot) (n : Nat) (x : StallRec) : (s.setStall l n x).held = s.held := rfl
@[simp] theorem setStall_stations (l : Lot) (n : Nat) (x : StallRec) : (s.setStall l n x).stations = s.stations := rfl
@[simp] theorem setStall_agingPeriod (l : Lot) (n : Nat) (x : StallRec) : (s.setStall l n x).agingPeriod = s.agingPeriod := rfl
@[simp] theorem setStall_agingCount (l : Lot) (n : Nat) (x : StallRec) : (s.setStall l n x).agingCount = s.agingCount := rfl
@[simp] theorem setStall_lotAt (l : Lot) (n : Nat) (x : StallRec) (k : Lot) :
    (s.setStall l n x).lotAt k = s.lotAt k := rfl
@[simp] theorem setStall_passAt (l : Lot) (n : Nat) (x : StallRec) (m : Nat) :
    (s.setStall l n x).passAt m = s.passAt m := rfl
@[simp] theorem setStall_laneAt (l : Lot) (n : Nat) (x : StallRec) (k : Lot) :
    (s.setStall l n x).laneAt k = s.laneAt k := rfl
@[simp] theorem setStall_loopAt (l : Lot) (n : Nat) (x : StallRec) (k : LoopId) :
    (s.setStall l n x).loopAt k = s.loopAt k := rfl
@[simp] theorem setStall_unitAt (l : Lot) (n : Nat) (x : StallRec) (k : LoopId) (m : Nat) :
    (s.setStall l n x).unitAt k m = s.unitAt k m := rfl
@[simp] theorem setStall_programmeAt (l : Lot) (n : Nat) (x : StallRec) (k : Lot) :
    (s.setStall l n x).programmeAt k = s.programmeAt k := rfl
@[simp] theorem setStall_boothAt (l : Lot) (n : Nat) (x : StallRec) (k : Lot) :
    (s.setStall l n x).boothAt k = s.boothAt k := rfl
@[simp] theorem setStall_lineAt (l : Lot) (n : Nat) (x : StallRec) (k : Lot) :
    (s.setStall l n x).lineAt k = s.lineAt k := rfl
@[simp] theorem setStall_channelAt (l : Lot) (n : Nat) (x : StallRec) (k : Lot) :
    (s.setStall l n x).channelAt k = s.channelAt k := rfl
@[simp] theorem setStall_orderAt (l : Lot) (n : Nat) (x : StallRec) (m : Nat) :
    (s.setStall l n x).orderAt m = s.orderAt m := rfl
@[simp] theorem setStall_priceAt (l : Lot) (n : Nat) (x : StallRec) (m : Nat) :
    (s.setStall l n x).priceAt m = s.priceAt m := rfl
@[simp] theorem setStall_stationAt (l : Lot) (n : Nat) (x : StallRec) (k : Fin 4) :
    (s.setStall l n x).stationAt k = s.stationAt k := rfl

/-! ## setPass -/

@[simp] theorem setPass_pending (n : Nat) (x : PassRec) : (s.setPass n x).pending = s.pending := rfl
@[simp] theorem setPass_olp (n : Nat) (x : PassRec) : (s.setPass n x).olp = s.olp := rfl
@[simp] theorem setPass_stalls (n : Nat) (x : PassRec) : (s.setPass n x).stalls = s.stalls := rfl
@[simp] theorem setPass_lots (n : Nat) (x : PassRec) : (s.setPass n x).lots = s.lots := rfl
@[simp] theorem setPass_untagged (n : Nat) (x : PassRec) : (s.setPass n x).untagged = s.untagged := rfl
@[simp] theorem setPass_transitLimit (n : Nat) (x : PassRec) : (s.setPass n x).transitLimit = s.transitLimit := rfl
@[simp] theorem setPass_vacateGrace (n : Nat) (x : PassRec) : (s.setPass n x).vacateGrace = s.vacateGrace := rfl
@[simp] theorem setPass_lanes (n : Nat) (x : PassRec) : (s.setPass n x).lanes = s.lanes := rfl
@[simp] theorem setPass_loops (n : Nat) (x : PassRec) : (s.setPass n x).loops = s.loops := rfl
@[simp] theorem setPass_programmes (n : Nat) (x : PassRec) : (s.setPass n x).programmes = s.programmes := rfl
@[simp] theorem setPass_booths (n : Nat) (x : PassRec) : (s.setPass n x).booths = s.booths := rfl
@[simp] theorem setPass_lines (n : Nat) (x : PassRec) : (s.setPass n x).lines = s.lines := rfl
@[simp] theorem setPass_channels (n : Nat) (x : PassRec) : (s.setPass n x).channels = s.channels := rfl
@[simp] theorem setPass_master (n : Nat) (x : PassRec) : (s.setPass n x).master = s.master := rfl
@[simp] theorem setPass_orders (n : Nat) (x : PassRec) : (s.setPass n x).orders = s.orders := rfl
@[simp] theorem setPass_prices (n : Nat) (x : PassRec) : (s.setPass n x).prices = s.prices := rfl
@[simp] theorem setPass_queue (n : Nat) (x : PassRec) : (s.setPass n x).queue = s.queue := rfl
@[simp] theorem setPass_held (n : Nat) (x : PassRec) : (s.setPass n x).held = s.held := rfl
@[simp] theorem setPass_stations (n : Nat) (x : PassRec) : (s.setPass n x).stations = s.stations := rfl
@[simp] theorem setPass_agingPeriod (n : Nat) (x : PassRec) : (s.setPass n x).agingPeriod = s.agingPeriod := rfl
@[simp] theorem setPass_agingCount (n : Nat) (x : PassRec) : (s.setPass n x).agingCount = s.agingCount := rfl
@[simp] theorem setPass_lotAt (n : Nat) (x : PassRec) (k : Lot) :
    (s.setPass n x).lotAt k = s.lotAt k := rfl
@[simp] theorem setPass_stallAt (n : Nat) (x : PassRec) (k : Lot) (m : Nat) :
    (s.setPass n x).stallAt k m = s.stallAt k m := rfl
@[simp] theorem setPass_laneAt (n : Nat) (x : PassRec) (k : Lot) :
    (s.setPass n x).laneAt k = s.laneAt k := rfl
@[simp] theorem setPass_loopAt (n : Nat) (x : PassRec) (k : LoopId) :
    (s.setPass n x).loopAt k = s.loopAt k := rfl
@[simp] theorem setPass_unitAt (n : Nat) (x : PassRec) (k : LoopId) (m : Nat) :
    (s.setPass n x).unitAt k m = s.unitAt k m := rfl
@[simp] theorem setPass_programmeAt (n : Nat) (x : PassRec) (k : Lot) :
    (s.setPass n x).programmeAt k = s.programmeAt k := rfl
@[simp] theorem setPass_boothAt (n : Nat) (x : PassRec) (k : Lot) :
    (s.setPass n x).boothAt k = s.boothAt k := rfl
@[simp] theorem setPass_lineAt (n : Nat) (x : PassRec) (k : Lot) :
    (s.setPass n x).lineAt k = s.lineAt k := rfl
@[simp] theorem setPass_channelAt (n : Nat) (x : PassRec) (k : Lot) :
    (s.setPass n x).channelAt k = s.channelAt k := rfl
@[simp] theorem setPass_orderAt (n : Nat) (x : PassRec) (m : Nat) :
    (s.setPass n x).orderAt m = s.orderAt m := rfl
@[simp] theorem setPass_priceAt (n : Nat) (x : PassRec) (m : Nat) :
    (s.setPass n x).priceAt m = s.priceAt m := rfl
@[simp] theorem setPass_stationAt (n : Nat) (x : PassRec) (k : Fin 4) :
    (s.setPass n x).stationAt k = s.stationAt k := rfl

/-! ## dropPass -/

@[simp] theorem dropPass_pending (n : Nat) : (s.dropPass n).pending = s.pending := rfl
@[simp] theorem dropPass_olp (n : Nat) : (s.dropPass n).olp = s.olp := rfl
@[simp] theorem dropPass_stalls (n : Nat) : (s.dropPass n).stalls = s.stalls := rfl
@[simp] theorem dropPass_lots (n : Nat) : (s.dropPass n).lots = s.lots := rfl
@[simp] theorem dropPass_untagged (n : Nat) : (s.dropPass n).untagged = s.untagged := rfl
@[simp] theorem dropPass_transitLimit (n : Nat) : (s.dropPass n).transitLimit = s.transitLimit := rfl
@[simp] theorem dropPass_vacateGrace (n : Nat) : (s.dropPass n).vacateGrace = s.vacateGrace := rfl
@[simp] theorem dropPass_lanes (n : Nat) : (s.dropPass n).lanes = s.lanes := rfl
@[simp] theorem dropPass_loops (n : Nat) : (s.dropPass n).loops = s.loops := rfl
@[simp] theorem dropPass_programmes (n : Nat) : (s.dropPass n).programmes = s.programmes := rfl
@[simp] theorem dropPass_booths (n : Nat) : (s.dropPass n).booths = s.booths := rfl
@[simp] theorem dropPass_lines (n : Nat) : (s.dropPass n).lines = s.lines := rfl
@[simp] theorem dropPass_channels (n : Nat) : (s.dropPass n).channels = s.channels := rfl
@[simp] theorem dropPass_master (n : Nat) : (s.dropPass n).master = s.master := rfl
@[simp] theorem dropPass_orders (n : Nat) : (s.dropPass n).orders = s.orders := rfl
@[simp] theorem dropPass_prices (n : Nat) : (s.dropPass n).prices = s.prices := rfl
@[simp] theorem dropPass_queue (n : Nat) : (s.dropPass n).queue = s.queue := rfl
@[simp] theorem dropPass_held (n : Nat) : (s.dropPass n).held = s.held := rfl
@[simp] theorem dropPass_stations (n : Nat) : (s.dropPass n).stations = s.stations := rfl
@[simp] theorem dropPass_agingPeriod (n : Nat) : (s.dropPass n).agingPeriod = s.agingPeriod := rfl
@[simp] theorem dropPass_agingCount (n : Nat) : (s.dropPass n).agingCount = s.agingCount := rfl
@[simp] theorem dropPass_lotAt (n : Nat) (k : Lot) :
    (s.dropPass n).lotAt k = s.lotAt k := rfl
@[simp] theorem dropPass_stallAt (n : Nat) (k : Lot) (m : Nat) :
    (s.dropPass n).stallAt k m = s.stallAt k m := rfl
@[simp] theorem dropPass_laneAt (n : Nat) (k : Lot) :
    (s.dropPass n).laneAt k = s.laneAt k := rfl
@[simp] theorem dropPass_loopAt (n : Nat) (k : LoopId) :
    (s.dropPass n).loopAt k = s.loopAt k := rfl
@[simp] theorem dropPass_unitAt (n : Nat) (k : LoopId) (m : Nat) :
    (s.dropPass n).unitAt k m = s.unitAt k m := rfl
@[simp] theorem dropPass_programmeAt (n : Nat) (k : Lot) :
    (s.dropPass n).programmeAt k = s.programmeAt k := rfl
@[simp] theorem dropPass_boothAt (n : Nat) (k : Lot) :
    (s.dropPass n).boothAt k = s.boothAt k := rfl
@[simp] theorem dropPass_lineAt (n : Nat) (k : Lot) :
    (s.dropPass n).lineAt k = s.lineAt k := rfl
@[simp] theorem dropPass_channelAt (n : Nat) (k : Lot) :
    (s.dropPass n).channelAt k = s.channelAt k := rfl
@[simp] theorem dropPass_orderAt (n : Nat) (m : Nat) :
    (s.dropPass n).orderAt m = s.orderAt m := rfl
@[simp] theorem dropPass_priceAt (n : Nat) (m : Nat) :
    (s.dropPass n).priceAt m = s.priceAt m := rfl
@[simp] theorem dropPass_stationAt (n : Nat) (k : Fin 4) :
    (s.dropPass n).stationAt k = s.stationAt k := rfl

/-! ## setLane -/

@[simp] theorem setLane_pending (l : Lot) (x : LaneCtx) : (s.setLane l x).pending = s.pending := rfl
@[simp] theorem setLane_olp (l : Lot) (x : LaneCtx) : (s.setLane l x).olp = s.olp := rfl
@[simp] theorem setLane_passes (l : Lot) (x : LaneCtx) : (s.setLane l x).passes = s.passes := rfl
@[simp] theorem setLane_stalls (l : Lot) (x : LaneCtx) : (s.setLane l x).stalls = s.stalls := rfl
@[simp] theorem setLane_lots (l : Lot) (x : LaneCtx) : (s.setLane l x).lots = s.lots := rfl
@[simp] theorem setLane_untagged (l : Lot) (x : LaneCtx) : (s.setLane l x).untagged = s.untagged := rfl
@[simp] theorem setLane_transitLimit (l : Lot) (x : LaneCtx) : (s.setLane l x).transitLimit = s.transitLimit := rfl
@[simp] theorem setLane_vacateGrace (l : Lot) (x : LaneCtx) : (s.setLane l x).vacateGrace = s.vacateGrace := rfl
@[simp] theorem setLane_loops (l : Lot) (x : LaneCtx) : (s.setLane l x).loops = s.loops := rfl
@[simp] theorem setLane_programmes (l : Lot) (x : LaneCtx) : (s.setLane l x).programmes = s.programmes := rfl
@[simp] theorem setLane_booths (l : Lot) (x : LaneCtx) : (s.setLane l x).booths = s.booths := rfl
@[simp] theorem setLane_lines (l : Lot) (x : LaneCtx) : (s.setLane l x).lines = s.lines := rfl
@[simp] theorem setLane_channels (l : Lot) (x : LaneCtx) : (s.setLane l x).channels = s.channels := rfl
@[simp] theorem setLane_master (l : Lot) (x : LaneCtx) : (s.setLane l x).master = s.master := rfl
@[simp] theorem setLane_orders (l : Lot) (x : LaneCtx) : (s.setLane l x).orders = s.orders := rfl
@[simp] theorem setLane_prices (l : Lot) (x : LaneCtx) : (s.setLane l x).prices = s.prices := rfl
@[simp] theorem setLane_queue (l : Lot) (x : LaneCtx) : (s.setLane l x).queue = s.queue := rfl
@[simp] theorem setLane_held (l : Lot) (x : LaneCtx) : (s.setLane l x).held = s.held := rfl
@[simp] theorem setLane_stations (l : Lot) (x : LaneCtx) : (s.setLane l x).stations = s.stations := rfl
@[simp] theorem setLane_agingPeriod (l : Lot) (x : LaneCtx) : (s.setLane l x).agingPeriod = s.agingPeriod := rfl
@[simp] theorem setLane_agingCount (l : Lot) (x : LaneCtx) : (s.setLane l x).agingCount = s.agingCount := rfl
@[simp] theorem setLane_lotAt (l : Lot) (x : LaneCtx) (k : Lot) :
    (s.setLane l x).lotAt k = s.lotAt k := rfl
@[simp] theorem setLane_stallAt (l : Lot) (x : LaneCtx) (k : Lot) (m : Nat) :
    (s.setLane l x).stallAt k m = s.stallAt k m := rfl
@[simp] theorem setLane_passAt (l : Lot) (x : LaneCtx) (m : Nat) :
    (s.setLane l x).passAt m = s.passAt m := rfl
@[simp] theorem setLane_loopAt (l : Lot) (x : LaneCtx) (k : LoopId) :
    (s.setLane l x).loopAt k = s.loopAt k := rfl
@[simp] theorem setLane_unitAt (l : Lot) (x : LaneCtx) (k : LoopId) (m : Nat) :
    (s.setLane l x).unitAt k m = s.unitAt k m := rfl
@[simp] theorem setLane_programmeAt (l : Lot) (x : LaneCtx) (k : Lot) :
    (s.setLane l x).programmeAt k = s.programmeAt k := rfl
@[simp] theorem setLane_boothAt (l : Lot) (x : LaneCtx) (k : Lot) :
    (s.setLane l x).boothAt k = s.boothAt k := rfl
@[simp] theorem setLane_lineAt (l : Lot) (x : LaneCtx) (k : Lot) :
    (s.setLane l x).lineAt k = s.lineAt k := rfl
@[simp] theorem setLane_channelAt (l : Lot) (x : LaneCtx) (k : Lot) :
    (s.setLane l x).channelAt k = s.channelAt k := rfl
@[simp] theorem setLane_orderAt (l : Lot) (x : LaneCtx) (m : Nat) :
    (s.setLane l x).orderAt m = s.orderAt m := rfl
@[simp] theorem setLane_priceAt (l : Lot) (x : LaneCtx) (m : Nat) :
    (s.setLane l x).priceAt m = s.priceAt m := rfl
@[simp] theorem setLane_stationAt (l : Lot) (x : LaneCtx) (k : Fin 4) :
    (s.setLane l x).stationAt k = s.stationAt k := rfl

/-! ## setLoop -/

@[simp] theorem setLoop_pending (l : LoopId) (x : LoopCtx) : (s.setLoop l x).pending = s.pending := rfl
@[simp] theorem setLoop_olp (l : LoopId) (x : LoopCtx) : (s.setLoop l x).olp = s.olp := rfl
@[simp] theorem setLoop_passes (l : LoopId) (x : LoopCtx) : (s.setLoop l x).passes = s.passes := rfl
@[simp] theorem setLoop_stalls (l : LoopId) (x : LoopCtx) : (s.setLoop l x).stalls = s.stalls := rfl
@[simp] theorem setLoop_lots (l : LoopId) (x : LoopCtx) : (s.setLoop l x).lots = s.lots := rfl
@[simp] theorem setLoop_untagged (l : LoopId) (x : LoopCtx) : (s.setLoop l x).untagged = s.untagged := rfl
@[simp] theorem setLoop_transitLimit (l : LoopId) (x : LoopCtx) : (s.setLoop l x).transitLimit = s.transitLimit := rfl
@[simp] theorem setLoop_vacateGrace (l : LoopId) (x : LoopCtx) : (s.setLoop l x).vacateGrace = s.vacateGrace := rfl
@[simp] theorem setLoop_lanes (l : LoopId) (x : LoopCtx) : (s.setLoop l x).lanes = s.lanes := rfl
@[simp] theorem setLoop_programmes (l : LoopId) (x : LoopCtx) : (s.setLoop l x).programmes = s.programmes := rfl
@[simp] theorem setLoop_booths (l : LoopId) (x : LoopCtx) : (s.setLoop l x).booths = s.booths := rfl
@[simp] theorem setLoop_lines (l : LoopId) (x : LoopCtx) : (s.setLoop l x).lines = s.lines := rfl
@[simp] theorem setLoop_channels (l : LoopId) (x : LoopCtx) : (s.setLoop l x).channels = s.channels := rfl
@[simp] theorem setLoop_master (l : LoopId) (x : LoopCtx) : (s.setLoop l x).master = s.master := rfl
@[simp] theorem setLoop_orders (l : LoopId) (x : LoopCtx) : (s.setLoop l x).orders = s.orders := rfl
@[simp] theorem setLoop_prices (l : LoopId) (x : LoopCtx) : (s.setLoop l x).prices = s.prices := rfl
@[simp] theorem setLoop_queue (l : LoopId) (x : LoopCtx) : (s.setLoop l x).queue = s.queue := rfl
@[simp] theorem setLoop_held (l : LoopId) (x : LoopCtx) : (s.setLoop l x).held = s.held := rfl
@[simp] theorem setLoop_stations (l : LoopId) (x : LoopCtx) : (s.setLoop l x).stations = s.stations := rfl
@[simp] theorem setLoop_agingPeriod (l : LoopId) (x : LoopCtx) : (s.setLoop l x).agingPeriod = s.agingPeriod := rfl
@[simp] theorem setLoop_agingCount (l : LoopId) (x : LoopCtx) : (s.setLoop l x).agingCount = s.agingCount := rfl
@[simp] theorem setLoop_lotAt (l : LoopId) (x : LoopCtx) (k : Lot) :
    (s.setLoop l x).lotAt k = s.lotAt k := rfl
@[simp] theorem setLoop_stallAt (l : LoopId) (x : LoopCtx) (k : Lot) (m : Nat) :
    (s.setLoop l x).stallAt k m = s.stallAt k m := rfl
@[simp] theorem setLoop_passAt (l : LoopId) (x : LoopCtx) (m : Nat) :
    (s.setLoop l x).passAt m = s.passAt m := rfl
@[simp] theorem setLoop_laneAt (l : LoopId) (x : LoopCtx) (k : Lot) :
    (s.setLoop l x).laneAt k = s.laneAt k := rfl
@[simp] theorem setLoop_programmeAt (l : LoopId) (x : LoopCtx) (k : Lot) :
    (s.setLoop l x).programmeAt k = s.programmeAt k := rfl
@[simp] theorem setLoop_boothAt (l : LoopId) (x : LoopCtx) (k : Lot) :
    (s.setLoop l x).boothAt k = s.boothAt k := rfl
@[simp] theorem setLoop_lineAt (l : LoopId) (x : LoopCtx) (k : Lot) :
    (s.setLoop l x).lineAt k = s.lineAt k := rfl
@[simp] theorem setLoop_channelAt (l : LoopId) (x : LoopCtx) (k : Lot) :
    (s.setLoop l x).channelAt k = s.channelAt k := rfl
@[simp] theorem setLoop_orderAt (l : LoopId) (x : LoopCtx) (m : Nat) :
    (s.setLoop l x).orderAt m = s.orderAt m := rfl
@[simp] theorem setLoop_priceAt (l : LoopId) (x : LoopCtx) (m : Nat) :
    (s.setLoop l x).priceAt m = s.priceAt m := rfl
@[simp] theorem setLoop_stationAt (l : LoopId) (x : LoopCtx) (k : Fin 4) :
    (s.setLoop l x).stationAt k = s.stationAt k := rfl

/-! ## setUnit -/

@[simp] theorem setUnit_pending (l : LoopId) (n : Nat) (x : UnitRec) : (s.setUnit l n x).pending = s.pending := rfl
@[simp] theorem setUnit_olp (l : LoopId) (n : Nat) (x : UnitRec) : (s.setUnit l n x).olp = s.olp := rfl
@[simp] theorem setUnit_passes (l : LoopId) (n : Nat) (x : UnitRec) : (s.setUnit l n x).passes = s.passes := rfl
@[simp] theorem setUnit_stalls (l : LoopId) (n : Nat) (x : UnitRec) : (s.setUnit l n x).stalls = s.stalls := rfl
@[simp] theorem setUnit_lots (l : LoopId) (n : Nat) (x : UnitRec) : (s.setUnit l n x).lots = s.lots := rfl
@[simp] theorem setUnit_untagged (l : LoopId) (n : Nat) (x : UnitRec) : (s.setUnit l n x).untagged = s.untagged := rfl
@[simp] theorem setUnit_transitLimit (l : LoopId) (n : Nat) (x : UnitRec) : (s.setUnit l n x).transitLimit = s.transitLimit := rfl
@[simp] theorem setUnit_vacateGrace (l : LoopId) (n : Nat) (x : UnitRec) : (s.setUnit l n x).vacateGrace = s.vacateGrace := rfl
@[simp] theorem setUnit_lanes (l : LoopId) (n : Nat) (x : UnitRec) : (s.setUnit l n x).lanes = s.lanes := rfl
@[simp] theorem setUnit_programmes (l : LoopId) (n : Nat) (x : UnitRec) : (s.setUnit l n x).programmes = s.programmes := rfl
@[simp] theorem setUnit_booths (l : LoopId) (n : Nat) (x : UnitRec) : (s.setUnit l n x).booths = s.booths := rfl
@[simp] theorem setUnit_lines (l : LoopId) (n : Nat) (x : UnitRec) : (s.setUnit l n x).lines = s.lines := rfl
@[simp] theorem setUnit_channels (l : LoopId) (n : Nat) (x : UnitRec) : (s.setUnit l n x).channels = s.channels := rfl
@[simp] theorem setUnit_master (l : LoopId) (n : Nat) (x : UnitRec) : (s.setUnit l n x).master = s.master := rfl
@[simp] theorem setUnit_orders (l : LoopId) (n : Nat) (x : UnitRec) : (s.setUnit l n x).orders = s.orders := rfl
@[simp] theorem setUnit_prices (l : LoopId) (n : Nat) (x : UnitRec) : (s.setUnit l n x).prices = s.prices := rfl
@[simp] theorem setUnit_queue (l : LoopId) (n : Nat) (x : UnitRec) : (s.setUnit l n x).queue = s.queue := rfl
@[simp] theorem setUnit_held (l : LoopId) (n : Nat) (x : UnitRec) : (s.setUnit l n x).held = s.held := rfl
@[simp] theorem setUnit_stations (l : LoopId) (n : Nat) (x : UnitRec) : (s.setUnit l n x).stations = s.stations := rfl
@[simp] theorem setUnit_agingPeriod (l : LoopId) (n : Nat) (x : UnitRec) : (s.setUnit l n x).agingPeriod = s.agingPeriod := rfl
@[simp] theorem setUnit_agingCount (l : LoopId) (n : Nat) (x : UnitRec) : (s.setUnit l n x).agingCount = s.agingCount := rfl
@[simp] theorem setUnit_lotAt (l : LoopId) (n : Nat) (x : UnitRec) (k : Lot) :
    (s.setUnit l n x).lotAt k = s.lotAt k := rfl
@[simp] theorem setUnit_stallAt (l : LoopId) (n : Nat) (x : UnitRec) (k : Lot) (m : Nat) :
    (s.setUnit l n x).stallAt k m = s.stallAt k m := rfl
@[simp] theorem setUnit_passAt (l : LoopId) (n : Nat) (x : UnitRec) (m : Nat) :
    (s.setUnit l n x).passAt m = s.passAt m := rfl
@[simp] theorem setUnit_laneAt (l : LoopId) (n : Nat) (x : UnitRec) (k : Lot) :
    (s.setUnit l n x).laneAt k = s.laneAt k := rfl
@[simp] theorem setUnit_programmeAt (l : LoopId) (n : Nat) (x : UnitRec) (k : Lot) :
    (s.setUnit l n x).programmeAt k = s.programmeAt k := rfl
@[simp] theorem setUnit_boothAt (l : LoopId) (n : Nat) (x : UnitRec) (k : Lot) :
    (s.setUnit l n x).boothAt k = s.boothAt k := rfl
@[simp] theorem setUnit_lineAt (l : LoopId) (n : Nat) (x : UnitRec) (k : Lot) :
    (s.setUnit l n x).lineAt k = s.lineAt k := rfl
@[simp] theorem setUnit_channelAt (l : LoopId) (n : Nat) (x : UnitRec) (k : Lot) :
    (s.setUnit l n x).channelAt k = s.channelAt k := rfl
@[simp] theorem setUnit_orderAt (l : LoopId) (n : Nat) (x : UnitRec) (m : Nat) :
    (s.setUnit l n x).orderAt m = s.orderAt m := rfl
@[simp] theorem setUnit_priceAt (l : LoopId) (n : Nat) (x : UnitRec) (m : Nat) :
    (s.setUnit l n x).priceAt m = s.priceAt m := rfl
@[simp] theorem setUnit_stationAt (l : LoopId) (n : Nat) (x : UnitRec) (k : Fin 4) :
    (s.setUnit l n x).stationAt k = s.stationAt k := rfl

/-! ## setProgramme -/

@[simp] theorem setProgramme_pending (l : Lot) (x : List Segment) : (s.setProgramme l x).pending = s.pending := rfl
@[simp] theorem setProgramme_olp (l : Lot) (x : List Segment) : (s.setProgramme l x).olp = s.olp := rfl
@[simp] theorem setProgramme_passes (l : Lot) (x : List Segment) : (s.setProgramme l x).passes = s.passes := rfl
@[simp] theorem setProgramme_stalls (l : Lot) (x : List Segment) : (s.setProgramme l x).stalls = s.stalls := rfl
@[simp] theorem setProgramme_lots (l : Lot) (x : List Segment) : (s.setProgramme l x).lots = s.lots := rfl
@[simp] theorem setProgramme_untagged (l : Lot) (x : List Segment) : (s.setProgramme l x).untagged = s.untagged := rfl
@[simp] theorem setProgramme_transitLimit (l : Lot) (x : List Segment) : (s.setProgramme l x).transitLimit = s.transitLimit := rfl
@[simp] theorem setProgramme_vacateGrace (l : Lot) (x : List Segment) : (s.setProgramme l x).vacateGrace = s.vacateGrace := rfl
@[simp] theorem setProgramme_lanes (l : Lot) (x : List Segment) : (s.setProgramme l x).lanes = s.lanes := rfl
@[simp] theorem setProgramme_loops (l : Lot) (x : List Segment) : (s.setProgramme l x).loops = s.loops := rfl
@[simp] theorem setProgramme_booths (l : Lot) (x : List Segment) : (s.setProgramme l x).booths = s.booths := rfl
@[simp] theorem setProgramme_lines (l : Lot) (x : List Segment) : (s.setProgramme l x).lines = s.lines := rfl
@[simp] theorem setProgramme_channels (l : Lot) (x : List Segment) : (s.setProgramme l x).channels = s.channels := rfl
@[simp] theorem setProgramme_master (l : Lot) (x : List Segment) : (s.setProgramme l x).master = s.master := rfl
@[simp] theorem setProgramme_orders (l : Lot) (x : List Segment) : (s.setProgramme l x).orders = s.orders := rfl
@[simp] theorem setProgramme_prices (l : Lot) (x : List Segment) : (s.setProgramme l x).prices = s.prices := rfl
@[simp] theorem setProgramme_queue (l : Lot) (x : List Segment) : (s.setProgramme l x).queue = s.queue := rfl
@[simp] theorem setProgramme_held (l : Lot) (x : List Segment) : (s.setProgramme l x).held = s.held := rfl
@[simp] theorem setProgramme_stations (l : Lot) (x : List Segment) : (s.setProgramme l x).stations = s.stations := rfl
@[simp] theorem setProgramme_agingPeriod (l : Lot) (x : List Segment) : (s.setProgramme l x).agingPeriod = s.agingPeriod := rfl
@[simp] theorem setProgramme_agingCount (l : Lot) (x : List Segment) : (s.setProgramme l x).agingCount = s.agingCount := rfl
@[simp] theorem setProgramme_lotAt (l : Lot) (x : List Segment) (k : Lot) :
    (s.setProgramme l x).lotAt k = s.lotAt k := rfl
@[simp] theorem setProgramme_stallAt (l : Lot) (x : List Segment) (k : Lot) (m : Nat) :
    (s.setProgramme l x).stallAt k m = s.stallAt k m := rfl
@[simp] theorem setProgramme_passAt (l : Lot) (x : List Segment) (m : Nat) :
    (s.setProgramme l x).passAt m = s.passAt m := rfl
@[simp] theorem setProgramme_laneAt (l : Lot) (x : List Segment) (k : Lot) :
    (s.setProgramme l x).laneAt k = s.laneAt k := rfl
@[simp] theorem setProgramme_loopAt (l : Lot) (x : List Segment) (k : LoopId) :
    (s.setProgramme l x).loopAt k = s.loopAt k := rfl
@[simp] theorem setProgramme_unitAt (l : Lot) (x : List Segment) (k : LoopId) (m : Nat) :
    (s.setProgramme l x).unitAt k m = s.unitAt k m := rfl
@[simp] theorem setProgramme_boothAt (l : Lot) (x : List Segment) (k : Lot) :
    (s.setProgramme l x).boothAt k = s.boothAt k := rfl
@[simp] theorem setProgramme_lineAt (l : Lot) (x : List Segment) (k : Lot) :
    (s.setProgramme l x).lineAt k = s.lineAt k := rfl
@[simp] theorem setProgramme_channelAt (l : Lot) (x : List Segment) (k : Lot) :
    (s.setProgramme l x).channelAt k = s.channelAt k := rfl
@[simp] theorem setProgramme_orderAt (l : Lot) (x : List Segment) (m : Nat) :
    (s.setProgramme l x).orderAt m = s.orderAt m := rfl
@[simp] theorem setProgramme_priceAt (l : Lot) (x : List Segment) (m : Nat) :
    (s.setProgramme l x).priceAt m = s.priceAt m := rfl
@[simp] theorem setProgramme_stationAt (l : Lot) (x : List Segment) (k : Fin 4) :
    (s.setProgramme l x).stationAt k = s.stationAt k := rfl

/-! ## setBooth -/

@[simp] theorem setBooth_pending (l : Lot) (x : BoothCtx) : (s.setBooth l x).pending = s.pending := rfl
@[simp] theorem setBooth_olp (l : Lot) (x : BoothCtx) : (s.setBooth l x).olp = s.olp := rfl
@[simp] theorem setBooth_passes (l : Lot) (x : BoothCtx) : (s.setBooth l x).passes = s.passes := rfl
@[simp] theorem setBooth_stalls (l : Lot) (x : BoothCtx) : (s.setBooth l x).stalls = s.stalls := rfl
@[simp] theorem setBooth_lots (l : Lot) (x : BoothCtx) : (s.setBooth l x).lots = s.lots := rfl
@[simp] theorem setBooth_untagged (l : Lot) (x : BoothCtx) : (s.setBooth l x).untagged = s.untagged := rfl
@[simp] theorem setBooth_transitLimit (l : Lot) (x : BoothCtx) : (s.setBooth l x).transitLimit = s.transitLimit := rfl
@[simp] theorem setBooth_vacateGrace (l : Lot) (x : BoothCtx) : (s.setBooth l x).vacateGrace = s.vacateGrace := rfl
@[simp] theorem setBooth_lanes (l : Lot) (x : BoothCtx) : (s.setBooth l x).lanes = s.lanes := rfl
@[simp] theorem setBooth_loops (l : Lot) (x : BoothCtx) : (s.setBooth l x).loops = s.loops := rfl
@[simp] theorem setBooth_programmes (l : Lot) (x : BoothCtx) : (s.setBooth l x).programmes = s.programmes := rfl
@[simp] theorem setBooth_lines (l : Lot) (x : BoothCtx) : (s.setBooth l x).lines = s.lines := rfl
@[simp] theorem setBooth_channels (l : Lot) (x : BoothCtx) : (s.setBooth l x).channels = s.channels := rfl
@[simp] theorem setBooth_master (l : Lot) (x : BoothCtx) : (s.setBooth l x).master = s.master := rfl
@[simp] theorem setBooth_orders (l : Lot) (x : BoothCtx) : (s.setBooth l x).orders = s.orders := rfl
@[simp] theorem setBooth_prices (l : Lot) (x : BoothCtx) : (s.setBooth l x).prices = s.prices := rfl
@[simp] theorem setBooth_queue (l : Lot) (x : BoothCtx) : (s.setBooth l x).queue = s.queue := rfl
@[simp] theorem setBooth_held (l : Lot) (x : BoothCtx) : (s.setBooth l x).held = s.held := rfl
@[simp] theorem setBooth_stations (l : Lot) (x : BoothCtx) : (s.setBooth l x).stations = s.stations := rfl
@[simp] theorem setBooth_agingPeriod (l : Lot) (x : BoothCtx) : (s.setBooth l x).agingPeriod = s.agingPeriod := rfl
@[simp] theorem setBooth_agingCount (l : Lot) (x : BoothCtx) : (s.setBooth l x).agingCount = s.agingCount := rfl
@[simp] theorem setBooth_lotAt (l : Lot) (x : BoothCtx) (k : Lot) :
    (s.setBooth l x).lotAt k = s.lotAt k := rfl
@[simp] theorem setBooth_stallAt (l : Lot) (x : BoothCtx) (k : Lot) (m : Nat) :
    (s.setBooth l x).stallAt k m = s.stallAt k m := rfl
@[simp] theorem setBooth_passAt (l : Lot) (x : BoothCtx) (m : Nat) :
    (s.setBooth l x).passAt m = s.passAt m := rfl
@[simp] theorem setBooth_laneAt (l : Lot) (x : BoothCtx) (k : Lot) :
    (s.setBooth l x).laneAt k = s.laneAt k := rfl
@[simp] theorem setBooth_loopAt (l : Lot) (x : BoothCtx) (k : LoopId) :
    (s.setBooth l x).loopAt k = s.loopAt k := rfl
@[simp] theorem setBooth_unitAt (l : Lot) (x : BoothCtx) (k : LoopId) (m : Nat) :
    (s.setBooth l x).unitAt k m = s.unitAt k m := rfl
@[simp] theorem setBooth_programmeAt (l : Lot) (x : BoothCtx) (k : Lot) :
    (s.setBooth l x).programmeAt k = s.programmeAt k := rfl
@[simp] theorem setBooth_lineAt (l : Lot) (x : BoothCtx) (k : Lot) :
    (s.setBooth l x).lineAt k = s.lineAt k := rfl
@[simp] theorem setBooth_channelAt (l : Lot) (x : BoothCtx) (k : Lot) :
    (s.setBooth l x).channelAt k = s.channelAt k := rfl
@[simp] theorem setBooth_orderAt (l : Lot) (x : BoothCtx) (m : Nat) :
    (s.setBooth l x).orderAt m = s.orderAt m := rfl
@[simp] theorem setBooth_priceAt (l : Lot) (x : BoothCtx) (m : Nat) :
    (s.setBooth l x).priceAt m = s.priceAt m := rfl
@[simp] theorem setBooth_stationAt (l : Lot) (x : BoothCtx) (k : Fin 4) :
    (s.setBooth l x).stationAt k = s.stationAt k := rfl

/-! ## setLine -/

@[simp] theorem setLine_pending (l : Lot) (x : LineCtx) : (s.setLine l x).pending = s.pending := rfl
@[simp] theorem setLine_olp (l : Lot) (x : LineCtx) : (s.setLine l x).olp = s.olp := rfl
@[simp] theorem setLine_passes (l : Lot) (x : LineCtx) : (s.setLine l x).passes = s.passes := rfl
@[simp] theorem setLine_stalls (l : Lot) (x : LineCtx) : (s.setLine l x).stalls = s.stalls := rfl
@[simp] theorem setLine_lots (l : Lot) (x : LineCtx) : (s.setLine l x).lots = s.lots := rfl
@[simp] theorem setLine_untagged (l : Lot) (x : LineCtx) : (s.setLine l x).untagged = s.untagged := rfl
@[simp] theorem setLine_transitLimit (l : Lot) (x : LineCtx) : (s.setLine l x).transitLimit = s.transitLimit := rfl
@[simp] theorem setLine_vacateGrace (l : Lot) (x : LineCtx) : (s.setLine l x).vacateGrace = s.vacateGrace := rfl
@[simp] theorem setLine_lanes (l : Lot) (x : LineCtx) : (s.setLine l x).lanes = s.lanes := rfl
@[simp] theorem setLine_loops (l : Lot) (x : LineCtx) : (s.setLine l x).loops = s.loops := rfl
@[simp] theorem setLine_programmes (l : Lot) (x : LineCtx) : (s.setLine l x).programmes = s.programmes := rfl
@[simp] theorem setLine_booths (l : Lot) (x : LineCtx) : (s.setLine l x).booths = s.booths := rfl
@[simp] theorem setLine_channels (l : Lot) (x : LineCtx) : (s.setLine l x).channels = s.channels := rfl
@[simp] theorem setLine_master (l : Lot) (x : LineCtx) : (s.setLine l x).master = s.master := rfl
@[simp] theorem setLine_orders (l : Lot) (x : LineCtx) : (s.setLine l x).orders = s.orders := rfl
@[simp] theorem setLine_prices (l : Lot) (x : LineCtx) : (s.setLine l x).prices = s.prices := rfl
@[simp] theorem setLine_queue (l : Lot) (x : LineCtx) : (s.setLine l x).queue = s.queue := rfl
@[simp] theorem setLine_held (l : Lot) (x : LineCtx) : (s.setLine l x).held = s.held := rfl
@[simp] theorem setLine_stations (l : Lot) (x : LineCtx) : (s.setLine l x).stations = s.stations := rfl
@[simp] theorem setLine_agingPeriod (l : Lot) (x : LineCtx) : (s.setLine l x).agingPeriod = s.agingPeriod := rfl
@[simp] theorem setLine_agingCount (l : Lot) (x : LineCtx) : (s.setLine l x).agingCount = s.agingCount := rfl
@[simp] theorem setLine_lotAt (l : Lot) (x : LineCtx) (k : Lot) :
    (s.setLine l x).lotAt k = s.lotAt k := rfl
@[simp] theorem setLine_stallAt (l : Lot) (x : LineCtx) (k : Lot) (m : Nat) :
    (s.setLine l x).stallAt k m = s.stallAt k m := rfl
@[simp] theorem setLine_passAt (l : Lot) (x : LineCtx) (m : Nat) :
    (s.setLine l x).passAt m = s.passAt m := rfl
@[simp] theorem setLine_laneAt (l : Lot) (x : LineCtx) (k : Lot) :
    (s.setLine l x).laneAt k = s.laneAt k := rfl
@[simp] theorem setLine_loopAt (l : Lot) (x : LineCtx) (k : LoopId) :
    (s.setLine l x).loopAt k = s.loopAt k := rfl
@[simp] theorem setLine_unitAt (l : Lot) (x : LineCtx) (k : LoopId) (m : Nat) :
    (s.setLine l x).unitAt k m = s.unitAt k m := rfl
@[simp] theorem setLine_programmeAt (l : Lot) (x : LineCtx) (k : Lot) :
    (s.setLine l x).programmeAt k = s.programmeAt k := rfl
@[simp] theorem setLine_boothAt (l : Lot) (x : LineCtx) (k : Lot) :
    (s.setLine l x).boothAt k = s.boothAt k := rfl
@[simp] theorem setLine_channelAt (l : Lot) (x : LineCtx) (k : Lot) :
    (s.setLine l x).channelAt k = s.channelAt k := rfl
@[simp] theorem setLine_orderAt (l : Lot) (x : LineCtx) (m : Nat) :
    (s.setLine l x).orderAt m = s.orderAt m := rfl
@[simp] theorem setLine_priceAt (l : Lot) (x : LineCtx) (m : Nat) :
    (s.setLine l x).priceAt m = s.priceAt m := rfl
@[simp] theorem setLine_stationAt (l : Lot) (x : LineCtx) (k : Fin 4) :
    (s.setLine l x).stationAt k = s.stationAt k := rfl

/-! ## setChannel -/

@[simp] theorem setChannel_pending (l : Lot) (x : ChannelCtx) : (s.setChannel l x).pending = s.pending := rfl
@[simp] theorem setChannel_olp (l : Lot) (x : ChannelCtx) : (s.setChannel l x).olp = s.olp := rfl
@[simp] theorem setChannel_passes (l : Lot) (x : ChannelCtx) : (s.setChannel l x).passes = s.passes := rfl
@[simp] theorem setChannel_stalls (l : Lot) (x : ChannelCtx) : (s.setChannel l x).stalls = s.stalls := rfl
@[simp] theorem setChannel_lots (l : Lot) (x : ChannelCtx) : (s.setChannel l x).lots = s.lots := rfl
@[simp] theorem setChannel_untagged (l : Lot) (x : ChannelCtx) : (s.setChannel l x).untagged = s.untagged := rfl
@[simp] theorem setChannel_transitLimit (l : Lot) (x : ChannelCtx) : (s.setChannel l x).transitLimit = s.transitLimit := rfl
@[simp] theorem setChannel_vacateGrace (l : Lot) (x : ChannelCtx) : (s.setChannel l x).vacateGrace = s.vacateGrace := rfl
@[simp] theorem setChannel_lanes (l : Lot) (x : ChannelCtx) : (s.setChannel l x).lanes = s.lanes := rfl
@[simp] theorem setChannel_loops (l : Lot) (x : ChannelCtx) : (s.setChannel l x).loops = s.loops := rfl
@[simp] theorem setChannel_programmes (l : Lot) (x : ChannelCtx) : (s.setChannel l x).programmes = s.programmes := rfl
@[simp] theorem setChannel_booths (l : Lot) (x : ChannelCtx) : (s.setChannel l x).booths = s.booths := rfl
@[simp] theorem setChannel_lines (l : Lot) (x : ChannelCtx) : (s.setChannel l x).lines = s.lines := rfl
@[simp] theorem setChannel_master (l : Lot) (x : ChannelCtx) : (s.setChannel l x).master = s.master := rfl
@[simp] theorem setChannel_orders (l : Lot) (x : ChannelCtx) : (s.setChannel l x).orders = s.orders := rfl
@[simp] theorem setChannel_prices (l : Lot) (x : ChannelCtx) : (s.setChannel l x).prices = s.prices := rfl
@[simp] theorem setChannel_queue (l : Lot) (x : ChannelCtx) : (s.setChannel l x).queue = s.queue := rfl
@[simp] theorem setChannel_held (l : Lot) (x : ChannelCtx) : (s.setChannel l x).held = s.held := rfl
@[simp] theorem setChannel_stations (l : Lot) (x : ChannelCtx) : (s.setChannel l x).stations = s.stations := rfl
@[simp] theorem setChannel_agingPeriod (l : Lot) (x : ChannelCtx) : (s.setChannel l x).agingPeriod = s.agingPeriod := rfl
@[simp] theorem setChannel_agingCount (l : Lot) (x : ChannelCtx) : (s.setChannel l x).agingCount = s.agingCount := rfl
@[simp] theorem setChannel_lotAt (l : Lot) (x : ChannelCtx) (k : Lot) :
    (s.setChannel l x).lotAt k = s.lotAt k := rfl
@[simp] theorem setChannel_stallAt (l : Lot) (x : ChannelCtx) (k : Lot) (m : Nat) :
    (s.setChannel l x).stallAt k m = s.stallAt k m := rfl
@[simp] theorem setChannel_passAt (l : Lot) (x : ChannelCtx) (m : Nat) :
    (s.setChannel l x).passAt m = s.passAt m := rfl
@[simp] theorem setChannel_laneAt (l : Lot) (x : ChannelCtx) (k : Lot) :
    (s.setChannel l x).laneAt k = s.laneAt k := rfl
@[simp] theorem setChannel_loopAt (l : Lot) (x : ChannelCtx) (k : LoopId) :
    (s.setChannel l x).loopAt k = s.loopAt k := rfl
@[simp] theorem setChannel_unitAt (l : Lot) (x : ChannelCtx) (k : LoopId) (m : Nat) :
    (s.setChannel l x).unitAt k m = s.unitAt k m := rfl
@[simp] theorem setChannel_programmeAt (l : Lot) (x : ChannelCtx) (k : Lot) :
    (s.setChannel l x).programmeAt k = s.programmeAt k := rfl
@[simp] theorem setChannel_boothAt (l : Lot) (x : ChannelCtx) (k : Lot) :
    (s.setChannel l x).boothAt k = s.boothAt k := rfl
@[simp] theorem setChannel_lineAt (l : Lot) (x : ChannelCtx) (k : Lot) :
    (s.setChannel l x).lineAt k = s.lineAt k := rfl
@[simp] theorem setChannel_orderAt (l : Lot) (x : ChannelCtx) (m : Nat) :
    (s.setChannel l x).orderAt m = s.orderAt m := rfl
@[simp] theorem setChannel_priceAt (l : Lot) (x : ChannelCtx) (m : Nat) :
    (s.setChannel l x).priceAt m = s.priceAt m := rfl
@[simp] theorem setChannel_stationAt (l : Lot) (x : ChannelCtx) (k : Fin 4) :
    (s.setChannel l x).stationAt k = s.stationAt k := rfl

/-! ## setOrder -/

@[simp] theorem setOrder_pending (n : Nat) (x : OrderRec) : (s.setOrder n x).pending = s.pending := rfl
@[simp] theorem setOrder_olp (n : Nat) (x : OrderRec) : (s.setOrder n x).olp = s.olp := rfl
@[simp] theorem setOrder_passes (n : Nat) (x : OrderRec) : (s.setOrder n x).passes = s.passes := rfl
@[simp] theorem setOrder_stalls (n : Nat) (x : OrderRec) : (s.setOrder n x).stalls = s.stalls := rfl
@[simp] theorem setOrder_lots (n : Nat) (x : OrderRec) : (s.setOrder n x).lots = s.lots := rfl
@[simp] theorem setOrder_untagged (n : Nat) (x : OrderRec) : (s.setOrder n x).untagged = s.untagged := rfl
@[simp] theorem setOrder_transitLimit (n : Nat) (x : OrderRec) : (s.setOrder n x).transitLimit = s.transitLimit := rfl
@[simp] theorem setOrder_vacateGrace (n : Nat) (x : OrderRec) : (s.setOrder n x).vacateGrace = s.vacateGrace := rfl
@[simp] theorem setOrder_lanes (n : Nat) (x : OrderRec) : (s.setOrder n x).lanes = s.lanes := rfl
@[simp] theorem setOrder_loops (n : Nat) (x : OrderRec) : (s.setOrder n x).loops = s.loops := rfl
@[simp] theorem setOrder_programmes (n : Nat) (x : OrderRec) : (s.setOrder n x).programmes = s.programmes := rfl
@[simp] theorem setOrder_booths (n : Nat) (x : OrderRec) : (s.setOrder n x).booths = s.booths := rfl
@[simp] theorem setOrder_lines (n : Nat) (x : OrderRec) : (s.setOrder n x).lines = s.lines := rfl
@[simp] theorem setOrder_channels (n : Nat) (x : OrderRec) : (s.setOrder n x).channels = s.channels := rfl
@[simp] theorem setOrder_master (n : Nat) (x : OrderRec) : (s.setOrder n x).master = s.master := rfl
@[simp] theorem setOrder_prices (n : Nat) (x : OrderRec) : (s.setOrder n x).prices = s.prices := rfl
@[simp] theorem setOrder_queue (n : Nat) (x : OrderRec) : (s.setOrder n x).queue = s.queue := rfl
@[simp] theorem setOrder_held (n : Nat) (x : OrderRec) : (s.setOrder n x).held = s.held := rfl
@[simp] theorem setOrder_stations (n : Nat) (x : OrderRec) : (s.setOrder n x).stations = s.stations := rfl
@[simp] theorem setOrder_agingPeriod (n : Nat) (x : OrderRec) : (s.setOrder n x).agingPeriod = s.agingPeriod := rfl
@[simp] theorem setOrder_agingCount (n : Nat) (x : OrderRec) : (s.setOrder n x).agingCount = s.agingCount := rfl
@[simp] theorem setOrder_lotAt (n : Nat) (x : OrderRec) (k : Lot) :
    (s.setOrder n x).lotAt k = s.lotAt k := rfl
@[simp] theorem setOrder_stallAt (n : Nat) (x : OrderRec) (k : Lot) (m : Nat) :
    (s.setOrder n x).stallAt k m = s.stallAt k m := rfl
@[simp] theorem setOrder_passAt (n : Nat) (x : OrderRec) (m : Nat) :
    (s.setOrder n x).passAt m = s.passAt m := rfl
@[simp] theorem setOrder_laneAt (n : Nat) (x : OrderRec) (k : Lot) :
    (s.setOrder n x).laneAt k = s.laneAt k := rfl
@[simp] theorem setOrder_loopAt (n : Nat) (x : OrderRec) (k : LoopId) :
    (s.setOrder n x).loopAt k = s.loopAt k := rfl
@[simp] theorem setOrder_unitAt (n : Nat) (x : OrderRec) (k : LoopId) (m : Nat) :
    (s.setOrder n x).unitAt k m = s.unitAt k m := rfl
@[simp] theorem setOrder_programmeAt (n : Nat) (x : OrderRec) (k : Lot) :
    (s.setOrder n x).programmeAt k = s.programmeAt k := rfl
@[simp] theorem setOrder_boothAt (n : Nat) (x : OrderRec) (k : Lot) :
    (s.setOrder n x).boothAt k = s.boothAt k := rfl
@[simp] theorem setOrder_lineAt (n : Nat) (x : OrderRec) (k : Lot) :
    (s.setOrder n x).lineAt k = s.lineAt k := rfl
@[simp] theorem setOrder_channelAt (n : Nat) (x : OrderRec) (k : Lot) :
    (s.setOrder n x).channelAt k = s.channelAt k := rfl
@[simp] theorem setOrder_priceAt (n : Nat) (x : OrderRec) (m : Nat) :
    (s.setOrder n x).priceAt m = s.priceAt m := rfl
@[simp] theorem setOrder_stationAt (n : Nat) (x : OrderRec) (k : Fin 4) :
    (s.setOrder n x).stationAt k = s.stationAt k := rfl

/-! ## dropOrder -/

@[simp] theorem dropOrder_pending (n : Nat) : (s.dropOrder n).pending = s.pending := rfl
@[simp] theorem dropOrder_olp (n : Nat) : (s.dropOrder n).olp = s.olp := rfl
@[simp] theorem dropOrder_passes (n : Nat) : (s.dropOrder n).passes = s.passes := rfl
@[simp] theorem dropOrder_stalls (n : Nat) : (s.dropOrder n).stalls = s.stalls := rfl
@[simp] theorem dropOrder_lots (n : Nat) : (s.dropOrder n).lots = s.lots := rfl
@[simp] theorem dropOrder_untagged (n : Nat) : (s.dropOrder n).untagged = s.untagged := rfl
@[simp] theorem dropOrder_transitLimit (n : Nat) : (s.dropOrder n).transitLimit = s.transitLimit := rfl
@[simp] theorem dropOrder_vacateGrace (n : Nat) : (s.dropOrder n).vacateGrace = s.vacateGrace := rfl
@[simp] theorem dropOrder_lanes (n : Nat) : (s.dropOrder n).lanes = s.lanes := rfl
@[simp] theorem dropOrder_loops (n : Nat) : (s.dropOrder n).loops = s.loops := rfl
@[simp] theorem dropOrder_programmes (n : Nat) : (s.dropOrder n).programmes = s.programmes := rfl
@[simp] theorem dropOrder_booths (n : Nat) : (s.dropOrder n).booths = s.booths := rfl
@[simp] theorem dropOrder_lines (n : Nat) : (s.dropOrder n).lines = s.lines := rfl
@[simp] theorem dropOrder_channels (n : Nat) : (s.dropOrder n).channels = s.channels := rfl
@[simp] theorem dropOrder_master (n : Nat) : (s.dropOrder n).master = s.master := rfl
@[simp] theorem dropOrder_prices (n : Nat) : (s.dropOrder n).prices = s.prices := rfl
@[simp] theorem dropOrder_queue (n : Nat) : (s.dropOrder n).queue = s.queue := rfl
@[simp] theorem dropOrder_held (n : Nat) : (s.dropOrder n).held = s.held := rfl
@[simp] theorem dropOrder_stations (n : Nat) : (s.dropOrder n).stations = s.stations := rfl
@[simp] theorem dropOrder_agingPeriod (n : Nat) : (s.dropOrder n).agingPeriod = s.agingPeriod := rfl
@[simp] theorem dropOrder_agingCount (n : Nat) : (s.dropOrder n).agingCount = s.agingCount := rfl
@[simp] theorem dropOrder_lotAt (n : Nat) (k : Lot) :
    (s.dropOrder n).lotAt k = s.lotAt k := rfl
@[simp] theorem dropOrder_stallAt (n : Nat) (k : Lot) (m : Nat) :
    (s.dropOrder n).stallAt k m = s.stallAt k m := rfl
@[simp] theorem dropOrder_passAt (n : Nat) (m : Nat) :
    (s.dropOrder n).passAt m = s.passAt m := rfl
@[simp] theorem dropOrder_laneAt (n : Nat) (k : Lot) :
    (s.dropOrder n).laneAt k = s.laneAt k := rfl
@[simp] theorem dropOrder_loopAt (n : Nat) (k : LoopId) :
    (s.dropOrder n).loopAt k = s.loopAt k := rfl
@[simp] theorem dropOrder_unitAt (n : Nat) (k : LoopId) (m : Nat) :
    (s.dropOrder n).unitAt k m = s.unitAt k m := rfl
@[simp] theorem dropOrder_programmeAt (n : Nat) (k : Lot) :
    (s.dropOrder n).programmeAt k = s.programmeAt k := rfl
@[simp] theorem dropOrder_boothAt (n : Nat) (k : Lot) :
    (s.dropOrder n).boothAt k = s.boothAt k := rfl
@[simp] theorem dropOrder_lineAt (n : Nat) (k : Lot) :
    (s.dropOrder n).lineAt k = s.lineAt k := rfl
@[simp] theorem dropOrder_channelAt (n : Nat) (k : Lot) :
    (s.dropOrder n).channelAt k = s.channelAt k := rfl
@[simp] theorem dropOrder_priceAt (n : Nat) (m : Nat) :
    (s.dropOrder n).priceAt m = s.priceAt m := rfl
@[simp] theorem dropOrder_stationAt (n : Nat) (k : Fin 4) :
    (s.dropOrder n).stationAt k = s.stationAt k := rfl

/-! ## setPriceRec -/

@[simp] theorem setPriceRec_pending (n : Nat) (x : PriceRec) : (s.setPriceRec n x).pending = s.pending := rfl
@[simp] theorem setPriceRec_olp (n : Nat) (x : PriceRec) : (s.setPriceRec n x).olp = s.olp := rfl
@[simp] theorem setPriceRec_passes (n : Nat) (x : PriceRec) : (s.setPriceRec n x).passes = s.passes := rfl
@[simp] theorem setPriceRec_stalls (n : Nat) (x : PriceRec) : (s.setPriceRec n x).stalls = s.stalls := rfl
@[simp] theorem setPriceRec_lots (n : Nat) (x : PriceRec) : (s.setPriceRec n x).lots = s.lots := rfl
@[simp] theorem setPriceRec_untagged (n : Nat) (x : PriceRec) : (s.setPriceRec n x).untagged = s.untagged := rfl
@[simp] theorem setPriceRec_transitLimit (n : Nat) (x : PriceRec) : (s.setPriceRec n x).transitLimit = s.transitLimit := rfl
@[simp] theorem setPriceRec_vacateGrace (n : Nat) (x : PriceRec) : (s.setPriceRec n x).vacateGrace = s.vacateGrace := rfl
@[simp] theorem setPriceRec_lanes (n : Nat) (x : PriceRec) : (s.setPriceRec n x).lanes = s.lanes := rfl
@[simp] theorem setPriceRec_loops (n : Nat) (x : PriceRec) : (s.setPriceRec n x).loops = s.loops := rfl
@[simp] theorem setPriceRec_programmes (n : Nat) (x : PriceRec) : (s.setPriceRec n x).programmes = s.programmes := rfl
@[simp] theorem setPriceRec_booths (n : Nat) (x : PriceRec) : (s.setPriceRec n x).booths = s.booths := rfl
@[simp] theorem setPriceRec_lines (n : Nat) (x : PriceRec) : (s.setPriceRec n x).lines = s.lines := rfl
@[simp] theorem setPriceRec_channels (n : Nat) (x : PriceRec) : (s.setPriceRec n x).channels = s.channels := rfl
@[simp] theorem setPriceRec_master (n : Nat) (x : PriceRec) : (s.setPriceRec n x).master = s.master := rfl
@[simp] theorem setPriceRec_orders (n : Nat) (x : PriceRec) : (s.setPriceRec n x).orders = s.orders := rfl
@[simp] theorem setPriceRec_queue (n : Nat) (x : PriceRec) : (s.setPriceRec n x).queue = s.queue := rfl
@[simp] theorem setPriceRec_held (n : Nat) (x : PriceRec) : (s.setPriceRec n x).held = s.held := rfl
@[simp] theorem setPriceRec_stations (n : Nat) (x : PriceRec) : (s.setPriceRec n x).stations = s.stations := rfl
@[simp] theorem setPriceRec_agingPeriod (n : Nat) (x : PriceRec) : (s.setPriceRec n x).agingPeriod = s.agingPeriod := rfl
@[simp] theorem setPriceRec_agingCount (n : Nat) (x : PriceRec) : (s.setPriceRec n x).agingCount = s.agingCount := rfl
@[simp] theorem setPriceRec_lotAt (n : Nat) (x : PriceRec) (k : Lot) :
    (s.setPriceRec n x).lotAt k = s.lotAt k := rfl
@[simp] theorem setPriceRec_stallAt (n : Nat) (x : PriceRec) (k : Lot) (m : Nat) :
    (s.setPriceRec n x).stallAt k m = s.stallAt k m := rfl
@[simp] theorem setPriceRec_passAt (n : Nat) (x : PriceRec) (m : Nat) :
    (s.setPriceRec n x).passAt m = s.passAt m := rfl
@[simp] theorem setPriceRec_laneAt (n : Nat) (x : PriceRec) (k : Lot) :
    (s.setPriceRec n x).laneAt k = s.laneAt k := rfl
@[simp] theorem setPriceRec_loopAt (n : Nat) (x : PriceRec) (k : LoopId) :
    (s.setPriceRec n x).loopAt k = s.loopAt k := rfl
@[simp] theorem setPriceRec_unitAt (n : Nat) (x : PriceRec) (k : LoopId) (m : Nat) :
    (s.setPriceRec n x).unitAt k m = s.unitAt k m := rfl
@[simp] theorem setPriceRec_programmeAt (n : Nat) (x : PriceRec) (k : Lot) :
    (s.setPriceRec n x).programmeAt k = s.programmeAt k := rfl
@[simp] theorem setPriceRec_boothAt (n : Nat) (x : PriceRec) (k : Lot) :
    (s.setPriceRec n x).boothAt k = s.boothAt k := rfl
@[simp] theorem setPriceRec_lineAt (n : Nat) (x : PriceRec) (k : Lot) :
    (s.setPriceRec n x).lineAt k = s.lineAt k := rfl
@[simp] theorem setPriceRec_channelAt (n : Nat) (x : PriceRec) (k : Lot) :
    (s.setPriceRec n x).channelAt k = s.channelAt k := rfl
@[simp] theorem setPriceRec_orderAt (n : Nat) (x : PriceRec) (m : Nat) :
    (s.setPriceRec n x).orderAt m = s.orderAt m := rfl
@[simp] theorem setPriceRec_stationAt (n : Nat) (x : PriceRec) (k : Fin 4) :
    (s.setPriceRec n x).stationAt k = s.stationAt k := rfl

/-! ## setStation -/

@[simp] theorem setStation_pending (l : Fin 4) (x : StationCtx) : (s.setStation l x).pending = s.pending := rfl
@[simp] theorem setStation_olp (l : Fin 4) (x : StationCtx) : (s.setStation l x).olp = s.olp := rfl
@[simp] theorem setStation_passes (l : Fin 4) (x : StationCtx) : (s.setStation l x).passes = s.passes := rfl
@[simp] theorem setStation_stalls (l : Fin 4) (x : StationCtx) : (s.setStation l x).stalls = s.stalls := rfl
@[simp] theorem setStation_lots (l : Fin 4) (x : StationCtx) : (s.setStation l x).lots = s.lots := rfl
@[simp] theorem setStation_untagged (l : Fin 4) (x : StationCtx) : (s.setStation l x).untagged = s.untagged := rfl
@[simp] theorem setStation_transitLimit (l : Fin 4) (x : StationCtx) : (s.setStation l x).transitLimit = s.transitLimit := rfl
@[simp] theorem setStation_vacateGrace (l : Fin 4) (x : StationCtx) : (s.setStation l x).vacateGrace = s.vacateGrace := rfl
@[simp] theorem setStation_lanes (l : Fin 4) (x : StationCtx) : (s.setStation l x).lanes = s.lanes := rfl
@[simp] theorem setStation_loops (l : Fin 4) (x : StationCtx) : (s.setStation l x).loops = s.loops := rfl
@[simp] theorem setStation_programmes (l : Fin 4) (x : StationCtx) : (s.setStation l x).programmes = s.programmes := rfl
@[simp] theorem setStation_booths (l : Fin 4) (x : StationCtx) : (s.setStation l x).booths = s.booths := rfl
@[simp] theorem setStation_lines (l : Fin 4) (x : StationCtx) : (s.setStation l x).lines = s.lines := rfl
@[simp] theorem setStation_channels (l : Fin 4) (x : StationCtx) : (s.setStation l x).channels = s.channels := rfl
@[simp] theorem setStation_master (l : Fin 4) (x : StationCtx) : (s.setStation l x).master = s.master := rfl
@[simp] theorem setStation_orders (l : Fin 4) (x : StationCtx) : (s.setStation l x).orders = s.orders := rfl
@[simp] theorem setStation_prices (l : Fin 4) (x : StationCtx) : (s.setStation l x).prices = s.prices := rfl
@[simp] theorem setStation_queue (l : Fin 4) (x : StationCtx) : (s.setStation l x).queue = s.queue := rfl
@[simp] theorem setStation_held (l : Fin 4) (x : StationCtx) : (s.setStation l x).held = s.held := rfl
@[simp] theorem setStation_agingPeriod (l : Fin 4) (x : StationCtx) : (s.setStation l x).agingPeriod = s.agingPeriod := rfl
@[simp] theorem setStation_agingCount (l : Fin 4) (x : StationCtx) : (s.setStation l x).agingCount = s.agingCount := rfl
@[simp] theorem setStation_lotAt (l : Fin 4) (x : StationCtx) (k : Lot) :
    (s.setStation l x).lotAt k = s.lotAt k := rfl
@[simp] theorem setStation_stallAt (l : Fin 4) (x : StationCtx) (k : Lot) (m : Nat) :
    (s.setStation l x).stallAt k m = s.stallAt k m := rfl
@[simp] theorem setStation_passAt (l : Fin 4) (x : StationCtx) (m : Nat) :
    (s.setStation l x).passAt m = s.passAt m := rfl
@[simp] theorem setStation_laneAt (l : Fin 4) (x : StationCtx) (k : Lot) :
    (s.setStation l x).laneAt k = s.laneAt k := rfl
@[simp] theorem setStation_loopAt (l : Fin 4) (x : StationCtx) (k : LoopId) :
    (s.setStation l x).loopAt k = s.loopAt k := rfl
@[simp] theorem setStation_unitAt (l : Fin 4) (x : StationCtx) (k : LoopId) (m : Nat) :
    (s.setStation l x).unitAt k m = s.unitAt k m := rfl
@[simp] theorem setStation_programmeAt (l : Fin 4) (x : StationCtx) (k : Lot) :
    (s.setStation l x).programmeAt k = s.programmeAt k := rfl
@[simp] theorem setStation_boothAt (l : Fin 4) (x : StationCtx) (k : Lot) :
    (s.setStation l x).boothAt k = s.boothAt k := rfl
@[simp] theorem setStation_lineAt (l : Fin 4) (x : StationCtx) (k : Lot) :
    (s.setStation l x).lineAt k = s.lineAt k := rfl
@[simp] theorem setStation_channelAt (l : Fin 4) (x : StationCtx) (k : Lot) :
    (s.setStation l x).channelAt k = s.channelAt k := rfl
@[simp] theorem setStation_orderAt (l : Fin 4) (x : StationCtx) (m : Nat) :
    (s.setStation l x).orderAt m = s.orderAt m := rfl
@[simp] theorem setStation_priceAt (l : Fin 4) (x : StationCtx) (m : Nat) :
    (s.setStation l x).priceAt m = s.priceAt m := rfl

/-! ## setOlp -/

@[simp] theorem setOlp_pending (x : Olp) : (s.setOlp x).pending = s.pending := rfl
@[simp] theorem setOlp_passes (x : Olp) : (s.setOlp x).passes = s.passes := rfl
@[simp] theorem setOlp_stalls (x : Olp) : (s.setOlp x).stalls = s.stalls := rfl
@[simp] theorem setOlp_lots (x : Olp) : (s.setOlp x).lots = s.lots := rfl
@[simp] theorem setOlp_untagged (x : Olp) : (s.setOlp x).untagged = s.untagged := rfl
@[simp] theorem setOlp_transitLimit (x : Olp) : (s.setOlp x).transitLimit = s.transitLimit := rfl
@[simp] theorem setOlp_vacateGrace (x : Olp) : (s.setOlp x).vacateGrace = s.vacateGrace := rfl
@[simp] theorem setOlp_lanes (x : Olp) : (s.setOlp x).lanes = s.lanes := rfl
@[simp] theorem setOlp_loops (x : Olp) : (s.setOlp x).loops = s.loops := rfl
@[simp] theorem setOlp_programmes (x : Olp) : (s.setOlp x).programmes = s.programmes := rfl
@[simp] theorem setOlp_booths (x : Olp) : (s.setOlp x).booths = s.booths := rfl
@[simp] theorem setOlp_lines (x : Olp) : (s.setOlp x).lines = s.lines := rfl
@[simp] theorem setOlp_channels (x : Olp) : (s.setOlp x).channels = s.channels := rfl
@[simp] theorem setOlp_master (x : Olp) : (s.setOlp x).master = s.master := rfl
@[simp] theorem setOlp_orders (x : Olp) : (s.setOlp x).orders = s.orders := rfl
@[simp] theorem setOlp_prices (x : Olp) : (s.setOlp x).prices = s.prices := rfl
@[simp] theorem setOlp_queue (x : Olp) : (s.setOlp x).queue = s.queue := rfl
@[simp] theorem setOlp_held (x : Olp) : (s.setOlp x).held = s.held := rfl
@[simp] theorem setOlp_stations (x : Olp) : (s.setOlp x).stations = s.stations := rfl
@[simp] theorem setOlp_agingPeriod (x : Olp) : (s.setOlp x).agingPeriod = s.agingPeriod := rfl
@[simp] theorem setOlp_agingCount (x : Olp) : (s.setOlp x).agingCount = s.agingCount := rfl
@[simp] theorem setOlp_lotAt (x : Olp) (k : Lot) :
    (s.setOlp x).lotAt k = s.lotAt k := rfl
@[simp] theorem setOlp_stallAt (x : Olp) (k : Lot) (m : Nat) :
    (s.setOlp x).stallAt k m = s.stallAt k m := rfl
@[simp] theorem setOlp_passAt (x : Olp) (m : Nat) :
    (s.setOlp x).passAt m = s.passAt m := rfl
@[simp] theorem setOlp_laneAt (x : Olp) (k : Lot) :
    (s.setOlp x).laneAt k = s.laneAt k := rfl
@[simp] theorem setOlp_loopAt (x : Olp) (k : LoopId) :
    (s.setOlp x).loopAt k = s.loopAt k := rfl
@[simp] theorem setOlp_unitAt (x : Olp) (k : LoopId) (m : Nat) :
    (s.setOlp x).unitAt k m = s.unitAt k m := rfl
@[simp] theorem setOlp_programmeAt (x : Olp) (k : Lot) :
    (s.setOlp x).programmeAt k = s.programmeAt k := rfl
@[simp] theorem setOlp_boothAt (x : Olp) (k : Lot) :
    (s.setOlp x).boothAt k = s.boothAt k := rfl
@[simp] theorem setOlp_lineAt (x : Olp) (k : Lot) :
    (s.setOlp x).lineAt k = s.lineAt k := rfl
@[simp] theorem setOlp_channelAt (x : Olp) (k : Lot) :
    (s.setOlp x).channelAt k = s.channelAt k := rfl
@[simp] theorem setOlp_orderAt (x : Olp) (m : Nat) :
    (s.setOlp x).orderAt m = s.orderAt m := rfl
@[simp] theorem setOlp_priceAt (x : Olp) (m : Nat) :
    (s.setOlp x).priceAt m = s.priceAt m := rfl
@[simp] theorem setOlp_stationAt (x : Olp) (k : Fin 4) :
    (s.setOlp x).stationAt k = s.stationAt k := rfl
@[simp] theorem setOlp_olp (x : Olp) : (s.setOlp x).olp = x := rfl

end Sys2Proof.Laws
end

