-- ==== Sys2Proof/Laws/Tables.lean ====
section
/-! SUPPORT. Reading back what was written: banks, tables and the accessors of the state; and that every
table operation keeps the canonical form. -/

namespace Sys2Proof.Laws

open Sys2Proof.Machine

/-! ## Banks -/

@[simp] theorem bankGet_bankPut_self {α : Type} {n : Nat} (b : Bank α n) (i : Fin n) (x : α) :
    bankGet (bankPut b i x) i = x := by
  simp [bankGet, bankPut]

theorem bankGet_bankPut_ne {α : Type} {n : Nat} (b : Bank α n) {i j : Fin n} (h : i ≠ j) (x : α) :
    bankGet (bankPut b i x) j = bankGet b j := by
  have hv : i.val ≠ j.val := fun e => h (Fin.ext e)
  simp [bankGet, bankPut, hv]

theorem bankGet_bankPut {α : Type} {n : Nat} (b : Bank α n) (i j : Fin n) (x : α) :
    bankGet (bankPut b i x) j = if i = j then x else bankGet b j := by
  split
  · next h => subst h; simp
  · next h => exact bankGet_bankPut_ne b h x

@[simp] theorem bankGet_map {α β : Type} {n : Nat} (f : α → β) (b : Bank α n) (i : Fin n) :
    bankGet (Vector.map f b) i = f (bankGet b i) := by
  simp [bankGet]

@[simp] theorem bankGet_replicate {α : Type} (n : Nat) (x : α) (i : Fin n) :
    bankGet (Vector.replicate n x) i = x := by
  simp [bankGet]

@[simp] theorem bankPut_bankPut {α : Type} {n : Nat} (b : Bank α n) (i : Fin n) (x y : α) :
    bankPut (bankPut b i x) i y = bankPut b i y := by
  simp [bankPut]

/-! ## Tables -/

theorem find_insert {α : Type} (t : Table α) (n m : Nat) (x : α) :
    Table.find (Table.insert t n x) m = if n = m then some x else Table.find t m := by
  induction t with
  | nil => simp [Table.insert, Table.find]
  | cons kv t ih =>
    obtain ⟨k, v⟩ := kv
    simp only [Table.insert]
    split
    · next h => simp [Table.find]
    · split
      · next h1 h2 =>
        subst h2
        simp only [Table.find]
        split <;> rfl
      · next h1 h2 =>
        simp only [Table.find, ih]
        by_cases hk : k = m
        · subst hk; simp [h2]
        · simp [hk]

@[simp] theorem find_insert_self {α : Type} (t : Table α) (n : Nat) (x : α) :
    Table.find (Table.insert t n x) n = some x := by
  simp [find_insert]

theorem find_insert_ne {α : Type} (t : Table α) {n m : Nat} (h : n ≠ m) (x : α) :
    Table.find (Table.insert t n x) m = Table.find t m := by
  simp [find_insert, h]

theorem find_erase {α : Type} (t : Table α) (n m : Nat) :
    Table.find (Table.erase t n) m = if n = m then none else Table.find t m := by
  induction t with
  | nil => simp [Table.erase, Table.find]
  | cons kv t ih =>
    obtain ⟨k, v⟩ := kv
    simp only [Table.erase, List.filter_cons] at ih ⊢
    by_cases hk : k = n
    · subst hk
      simp only [ne_eq, not_true_eq_false, decide_false, Bool.false_eq_true, if_false, ih, Table.find]
      by_cases hm : k = m <;> simp [hm]
    · simp only [ne_eq, hk, not_false_eq_true, decide_true, if_true, Table.find, ih]
      by_cases hm : k = m
      · have : n ≠ m := fun e => hk (hm.trans e.symm)
        simp [hm, this]
      · simp [hm]

@[simp] theorem find_erase_self {α : Type} (t : Table α) (n : Nat) :
    Table.find (Table.erase t n) n = none := by
  simp [find_erase]

theorem find_erase_ne {α : Type} (t : Table α) {n m : Nat} (h : n ≠ m) :
    Table.find (Table.erase t n) m = Table.find t m := by
  simp [find_erase, h]

theorem getD_put {α : Type} [DecidableEq α] (d : α) (t : Table α) (n m : Nat) (x : α) :
    Table.getD d (Table.put d t n x) m = if n = m then x else Table.getD d t m := by
  simp only [Table.getD, Table.put]
  split
  · next h => simp only [find_erase]; split <;> simp [h]
  · next h => simp only [find_insert]; split <;> simp

@[simp] theorem getD_put_self {α : Type} [DecidableEq α] (d : α) (t : Table α) (n : Nat) (x : α) :
    Table.getD d (Table.put d t n x) n = x := by
  simp [getD_put]

theorem getD_put_ne {α : Type} [DecidableEq α] (d : α) (t : Table α) {n m : Nat} (h : n ≠ m) (x : α) :
    Table.getD d (Table.put d t n x) m = Table.getD d t m := by
  simp [getD_put, h]

/-! ## Canonical form -/

/-- Strictly rising keys, as a list property. -/
theorem sorted_iff {α : Type} (t : Table α) :
    Table.sorted t = true ↔ t.Pairwise (fun a b => a.1 < b.1) := by
  induction t with
  | nil => simp [Table.sorted]
  | cons a t ih =>
    cases t with
    | nil => simp [Table.sorted]
    | cons b t =>
      simp only [Table.sorted, Bool.and_eq_true, decide_eq_true_eq, ih]
      constructor
      · rintro ⟨hab, hp⟩
        refine List.pairwise_cons.2 ⟨?_, hp⟩
        intro c hc
        rcases List.mem_cons.1 hc with rfl | hc
        · exact hab
        · exact Nat.lt_trans hab ((List.pairwise_cons.1 hp).1 c hc)
      · intro hp
        have h := List.pairwise_cons.1 hp
        exact ⟨h.1 b (List.mem_cons_self), h.2⟩

theorem mem_insert {α : Type} (t : Table α) (n : Nat) (x : α) (kv : Nat × α)
    (h : kv ∈ Table.insert t n x) : kv = (n, x) ∨ kv ∈ t := by
  induction t with
  | nil => simpa [Table.insert] using h
  | cons a t ih =>
    obtain ⟨k, v⟩ := a
    simp only [Table.insert] at h
    split at h
    · simpa using h
    · split at h
      · rcases List.mem_cons.1 h with h | h
        · exact Or.inl h
        · exact Or.inr (List.mem_cons_of_mem _ h)
      · rcases List.mem_cons.1 h with h | h
        · exact Or.inr (by simp [h])
        · rcases ih h with h | h
          · exact Or.inl h
          · exact Or.inr (List.mem_cons_of_mem _ h)

theorem sorted_insert {α : Type} (t : Table α) (n : Nat) (x : α) (h : Table.sorted t = true) :
    Table.sorted (Table.insert t n x) = true := by
  rw [sorted_iff] at h ⊢
  induction t with
  | nil => simp [Table.insert]
  | cons a t ih =>
    obtain ⟨k, v⟩ := a
    have hc := List.pairwise_cons.1 h
    simp only [Table.insert]
    split
    · next hk =>
      refine List.pairwise_cons.2 ⟨?_, h⟩
      intro c hcm
      rcases List.mem_cons.1 hcm with rfl | hcm
      · exact hk
      · exact Nat.lt_trans hk (hc.1 c hcm)
    · split
      · next hk he =>
        subst he
        exact List.pairwise_cons.2 ⟨fun c hcm => hc.1 c hcm, hc.2⟩
      · next hk he =>
        refine List.pairwise_cons.2 ⟨?_, ih hc.2⟩
        intro c hcm
        rcases mem_insert t n x c hcm with rfl | hcm
        · show k < n
          omega
        · exact hc.1 c hcm

theorem sorted_filter {α : Type} (t : Table α) (p : Nat × α → Bool) (h : Table.sorted t = true) :
    Table.sorted (t.filter p) = true := by
  rw [sorted_iff] at h ⊢
  exact h.filter p

theorem sorted_erase {α : Type} (t : Table α) (n : Nat) (h : Table.sorted t = true) :
    Table.sorted (Table.erase t n) = true :=
  sorted_filter t _ h

theorem sorted_mapV {α : Type} (t : Table α) (f : Nat → α → α) (h : Table.sorted t = true) :
    Table.sorted (Table.mapV f t) = true := by
  rw [sorted_iff] at h ⊢
  simp only [Table.mapV, List.pairwise_map]
  exact h

theorem wf_iff {α : Type} [DecidableEq α] (d : α) (t : Table α) :
    Table.wf d t = true ↔ Table.sorted t = true ∧ ∀ kv ∈ t, kv.2 ≠ d := by
  simp [Table.wf]

theorem wf_put {α : Type} [DecidableEq α] (d : α) (t : Table α) (n : Nat) (x : α)
    (h : Table.wf d t = true) : Table.wf d (Table.put d t n x) = true := by
  rw [wf_iff] at h ⊢
  simp only [Table.put]
  split
  · refine ⟨sorted_erase t n h.1, ?_⟩
    intro kv hkv
    exact h.2 kv (List.mem_of_mem_filter hkv)
  · next hx =>
    refine ⟨sorted_insert t n x h.1, ?_⟩
    intro kv hkv
    rcases mem_insert t n x kv hkv with rfl | hkv
    · exact hx
    · exact h.2 kv hkv

theorem wf_mapD {α : Type} [DecidableEq α] (d : α) (t : Table α) (f : Nat → α → α)
    (h : Table.wf d t = true) : Table.wf d (Table.mapD d f t) = true := by
  rw [wf_iff] at h ⊢
  refine ⟨sorted_filter _ _ (sorted_mapV t f h.1), ?_⟩
  intro kv hkv
  simpa using (List.mem_filter.1 hkv).2

/-! ## Reading back through the state -/

variable (s : State)

@[simp] theorem lotAt_setLot (l : Lot) (x : LotRec) : (s.setLot l x).lotAt l = x := by
  simp [State.lotAt, State.setLot]
theorem lotAt_setLot_ne {l k : Lot} (h : l ≠ k) (x : LotRec) :
    (s.setLot l x).lotAt k = s.lotAt k := bankGet_bankPut_ne _ h _
theorem lotAt_setLot_if (l k : Lot) (x : LotRec) :
    (s.setLot l x).lotAt k = if l = k then x else s.lotAt k := bankGet_bankPut _ _ _ _

@[simp] theorem laneAt_setLane (l : Lot) (x : LaneCtx) : (s.setLane l x).laneAt l = x := by
  simp [State.laneAt, State.setLane]
theorem laneAt_setLane_ne {l k : Lot} (h : l ≠ k) (x : LaneCtx) :
    (s.setLane l x).laneAt k = s.laneAt k := bankGet_bankPut_ne _ h _

@[simp] theorem loopAt_setLoop (n : LoopId) (x : LoopCtx) : (s.setLoop n x).loopAt n = x := by
  simp [State.loopAt, State.setLoop]
theorem loopAt_setLoop_ne {n k : LoopId} (h : n ≠ k) (x : LoopCtx) :
    (s.setLoop n x).loopAt k = s.loopAt k := bankGet_bankPut_ne _ h _

@[simp] theorem programmeAt_setProgramme (l : Lot) (x : List Segment) :
    (s.setProgramme l x).programmeAt l = x := by
  simp [State.programmeAt, State.setProgramme]
theorem programmeAt_setProgramme_ne {l k : Lot} (h : l ≠ k) (x : List Segment) :
    (s.setProgramme l x).programmeAt k = s.programmeAt k := bankGet_bankPut_ne _ h _

@[simp] theorem boothAt_setBooth (l : Lot) (x : BoothCtx) : (s.setBooth l x).boothAt l = x := by
  simp [State.boothAt, State.setBooth]
theorem boothAt_setBooth_ne {l k : Lot} (h : l ≠ k) (x : BoothCtx) :
    (s.setBooth l x).boothAt k = s.boothAt k := bankGet_bankPut_ne _ h _

@[simp] theorem lineAt_setLine (l : Lot) (x : LineCtx) : (s.setLine l x).lineAt l = x := by
  simp [State.lineAt, State.setLine]
theorem lineAt_setLine_ne {l k : Lot} (h : l ≠ k) (x : LineCtx) :
    (s.setLine l x).lineAt k = s.lineAt k := bankGet_bankPut_ne _ h _

@[simp] theorem channelAt_setChannel (l : Lot) (x : ChannelCtx) :
    (s.setChannel l x).channelAt l = x := by
  simp [State.channelAt, State.setChannel]
theorem channelAt_setChannel_ne {l k : Lot} (h : l ≠ k) (x : ChannelCtx) :
    (s.setChannel l x).channelAt k = s.channelAt k := bankGet_bankPut_ne _ h _

@[simp] theorem stationAt_setStation (l : Fin 4) (x : StationCtx) :
    (s.setStation l x).stationAt l = x := by
  simp [State.stationAt, State.setStation]
theorem stationAt_setStation_ne {l k : Fin 4} (h : l ≠ k) (x : StationCtx) :
    (s.setStation l x).stationAt k = s.stationAt k := bankGet_bankPut_ne _ h _

@[simp] theorem stallAt_setStall (l : Lot) (n : Nat) (x : StallRec) :
    (s.setStall l n x).stallAt l n = x := by
  simp [State.stallAt, State.setStall]
theorem stallAt_setStall_if (l k : Lot) (n m : Nat) (x : StallRec) :
    (s.setStall l n x).stallAt k m = if l = k ∧ n = m then x else s.stallAt k m := by
  simp only [State.stallAt, State.setStall, bankGet_bankPut]
  by_cases h : l = k
  · subst h; simp [getD_put]
  · simp [h]
theorem stallAt_setStall_ne {l k : Lot} {n m : Nat} (h : (l, n) ≠ (k, m)) (x : StallRec) :
    (s.setStall l n x).stallAt k m = s.stallAt k m := by
  rw [stallAt_setStall_if]
  have h' : ¬(l = k ∧ n = m) := fun e => h (by rw [e.1, e.2])
  simp [h']

@[simp] theorem unitAt_setUnit (n : LoopId) (a : Nat) (x : UnitRec) :
    (s.setUnit n a x).unitAt n a = x := by
  simp [State.unitAt, State.setUnit]
theorem unitAt_setUnit_if (n k : LoopId) (a b : Nat) (x : UnitRec) :
    (s.setUnit n a x).unitAt k b = if n = k ∧ a = b then x else s.unitAt k b := by
  simp only [State.unitAt, State.setUnit]
  by_cases h : n = k
  · subst h; simp [getD_put]
  · simp [h, loopAt_setLoop_ne s h]

theorem passAt_setPass_if (n m : Nat) (x : PassRec) :
    (s.setPass n x).passAt m =
      if n = m ∧ 1 ≤ m ∧ m ≤ Config.maxTag then some x else s.passAt m := by
  simp only [State.passAt, State.setPass, find_insert]
  by_cases h : n = m
  · subst h
    by_cases hr : 1 ≤ n ∧ n ≤ Config.maxTag <;> simp [hr]
  · simp [h]
theorem passAt_dropPass_if (n m : Nat) :
    (s.dropPass n).passAt m = if n = m then none else s.passAt m := by
  simp only [State.passAt, State.dropPass, find_erase]
  by_cases h : n = m <;> simp [h]

@[simp] theorem orderAt_setOrder (n : Nat) (x : OrderRec) : (s.setOrder n x).orderAt n = some x := by
  simp [State.orderAt, State.setOrder]
theorem orderAt_setOrder_if (n m : Nat) (x : OrderRec) :
    (s.setOrder n x).orderAt m = if n = m then some x else s.orderAt m := by
  simp [State.orderAt, State.setOrder, find_insert]
theorem orderAt_dropOrder_if (n m : Nat) :
    (s.dropOrder n).orderAt m = if n = m then none else s.orderAt m := by
  simp [State.orderAt, State.dropOrder, find_erase]

@[simp] theorem priceAt_setPriceRec (n : Nat) (x : PriceRec) :
    (s.setPriceRec n x).priceAt n = x := by
  simp [State.priceAt, State.setPriceRec]
theorem priceAt_setPriceRec_if (n m : Nat) (x : PriceRec) :
    (s.setPriceRec n x).priceAt m = if n = m then x else s.priceAt m := by
  simp [State.priceAt, State.setPriceRec, getD_put]

/-- Two writes of one context are the second. -/
@[simp] theorem setLine_setLine (l : Lot) (x y : LineCtx) :
    (s.setLine l x).setLine l y = s.setLine l y := by
  simp [State.setLine]
@[simp] theorem setChannel_setChannel (l : Lot) (x y : ChannelCtx) :
    (s.setChannel l x).setChannel l y = s.setChannel l y := by
  simp [State.setChannel]
@[simp] theorem setBooth_setBooth (l : Lot) (x y : BoothCtx) :
    (s.setBooth l x).setBooth l y = s.setBooth l y := by
  simp [State.setBooth]
@[simp] theorem setLane_setLane (l : Lot) (x y : LaneCtx) :
    (s.setLane l x).setLane l y = s.setLane l y := by
  simp [State.setLane]
@[simp] theorem setLot_setLot (l : Lot) (x y : LotRec) :
    (s.setLot l x).setLot l y = s.setLot l y := by
  simp [State.setLot]
@[simp] theorem setOlp_setOlp (x y : Olp) : (s.setOlp x).setOlp y = s.setOlp y := rfl

end Sys2Proof.Laws
end

