-- ==== Sys2Proof/Laws/Lots.lean ====
section
/-! SUPPORT. The numbers that name things read back, and what unbinding a stall, a display and a new record
of a live pass can do. -/

namespace Sys2Proof.Laws

open Sys2Proof.Machine

/-! ## Numbers -/

/-- A lot's own number names it. -/
@[simp] theorem lot?_lotNumber (l : Lot) : lot? (lotNumber l) = some l := by
  simp [lot?, lotNumber]

/-- A lane's own number names it. -/
@[simp] theorem lane?_lotNumber (i : Lot) : lane? (lotNumber i) = some i := lot?_lotNumber i

/-- A number outside 1 to 6 names no lot. -/
theorem lot?_none {n : Nat} (h : n = 0 ∨ 6 < n) : lot? n = none := by
  simp [lot?]; omega

/-- A station's own number names it. -/
@[simp] theorem station?_number (k : Fin 4) : station? (k.val + 1) = some k := by
  simp [station?]

/-- A lot and a stall number within range name a stall. -/
theorem stall?_lotNumber (l : Lot) {n : Nat} (h1 : 1 ≤ n) (h2 : n ≤ 384) :
    stall? (lotNumber l) n = some (l, n) := by
  simp [stall?, stallInRange, Config.maxStall, h1, h2]

/-- A loop's own number names it. -/
@[simp] theorem loop?_val (n : LoopId) : loop? n.val = some n := by
  simp [loop?]

/-! ## Live passes -/

/-- A live pass has a tag within 1 to 9,999. -/
theorem tag_of_passAt {s : State} {tag : Nat} {p : PassRec} (h : s.passAt tag = some p) :
    1 ≤ tag ∧ tag ≤ Config.maxTag := by
  unfold State.passAt at h
  split at h
  · assumption
  · cases h

/-- A record written under a lawful tag is read back. -/
theorem passAt_setPass_of {tag : Nat} (h : 1 ≤ tag ∧ tag ≤ Config.maxTag) (s : State) (p : PassRec) :
    (s.setPass tag p).passAt tag = some p := by
  rw [passAt_setPass_if]
  simp [h]

/-! ## Unbinding -/

/-- R154: what settling a stall's draft does. -/
theorem settleDraft_eq (l : Lot) (n : Nat) (s : State) :
    settleDraft l n s = match (s.stallAt l n).draft with
      | some d => (s.setStall l n { s.stallAt l n with draft := none }).dropOrder d
      | none => s := by
  unfold settleDraft
  cases (s.stallAt l n).draft <;> rfl

/-- R6, R154, R158: the stall unbound goes FREE with no tag, grace or draft and its lamp OFF. -/
theorem unbindStall_stallAt (l : Lot) (n : Nat) (s : State) (k : Lot) (m : Nat) :
    (unbindStall l n s).stallAt k m =
      if l = k ∧ n = m then { s.stallAt l n with
        state := .free, tag := none, grace := none, draft := none, lampDesired := .off }
      else s.stallAt k m := by
  unfold unbindStall
  dsimp only
  rw [settleDraft_eq]
  split
  · simp only [relampStall, stallAt_setStall_if, lampWanted, stallBound]
    by_cases h : l = k ∧ n = m
    · obtain ⟨rfl, rfl⟩ := h; simp
    · simp [h, stallAt_setStall_if]
  · next h =>
    have h : (s.stallAt l n).draft = none := by simpa using h
    simp only [relampStall, stallAt_setStall_if, lampWanted, stallBound]
    by_cases h2 : l = k ∧ n = m
    · obtain ⟨rfl, rfl⟩ := h2; simp [h]
    · simp [h2, stallAt_setStall_if]

/-- R154: the stall's draft, if it held one, is freed. -/
theorem unbindStall_orderAt (l : Lot) (n : Nat) (s : State) (d : Nat) :
    (unbindStall l n s).orderAt d =
      if (s.stallAt l n).draft = some d then none else s.orderAt d := by
  unfold unbindStall
  dsimp only
  rw [settleDraft_eq]
  split
  · next d' h =>
    have h : (s.stallAt l n).draft = some d' := by simpa using h
    simp [relampStall, h, orderAt_dropOrder_if]
  · next h =>
    have h : (s.stallAt l n).draft = none := by simpa using h
    simp [relampStall, h]

/-- R14, R19, R22: the lot's parked falls by one. -/
theorem unbindStall_lotAt (l : Lot) (n : Nat) (s : State) (k : Lot) :
    (unbindStall l n s).lotAt k =
      if l = k then { s.lotAt l with parked := (s.lotAt l).parked - 1 } else s.lotAt k := by
  unfold unbindStall
  dsimp only
  rw [settleDraft_eq]
  split <;> simp [relampStall, lotAt_setLot_if]

/-- Unbinding changes stalls, lots and orders alone. -/
theorem unbindStall_rest (l : Lot) (n : Nat) (s : State) :
    unbindStall l n s = { s with
      stalls := (unbindStall l n s).stalls, lots := (unbindStall l n s).lots,
      orders := (unbindStall l n s).orders } := by
  unfold unbindStall
  dsimp only
  rw [settleDraft_eq]
  split <;> rfl

@[simp] theorem unbindStall_passAt (l : Lot) (n : Nat) (s : State) (t : Nat) :
    (unbindStall l n s).passAt t = s.passAt t := by
  rw [unbindStall_rest]
  rfl

@[simp] theorem unbindStall_olp (l : Lot) (n : Nat) (s : State) : (unbindStall l n s).olp = s.olp := by
  rw [unbindStall_rest]

end Sys2Proof.Laws
end

