-- ==== Sys2Proof/Laws/Sound.lean ====
section
/-! SUPPORT. What the booth-line and channel operations can do: each touches the line and the channel of
its own lot and the notice set, and nothing else. -/

namespace Sys2Proof.Laws

open Sys2Proof.Machine

/-- `t` is `s` but for the line and channel of lot `l` and the notice set. -/
structure SoundOnly (l : Lot) (s t : State) : Prop where
  pending : t.pending = s.pending
  session : t.olp.session = s.olp.session
  clock : t.olp.clock = s.olp.clock
  tagSeq : t.olp.tagSeq = s.olp.tagSeq
  orderSeq : t.olp.orderSeq = s.olp.orderSeq
  placeSeq : t.olp.placeSeq = s.olp.placeSeq
  slot : t.olp.slot = s.olp.slot
  passes : t.passes = s.passes
  stalls : t.stalls = s.stalls
  lots : t.lots = s.lots
  untagged : t.untagged = s.untagged
  transitLimit : t.transitLimit = s.transitLimit
  vacateGrace : t.vacateGrace = s.vacateGrace
  lanes : t.lanes = s.lanes
  loops : t.loops = s.loops
  programmes : t.programmes = s.programmes
  booths : t.booths = s.booths
  lines : ∀ k, k ≠ l → t.lineAt k = s.lineAt k
  channels : ∀ k, k ≠ l → t.channelAt k = s.channelAt k
  master : t.master = s.master
  orders : t.orders = s.orders
  prices : t.prices = s.prices
  queue : t.queue = s.queue
  held : t.held = s.held
  stations : t.stations = s.stations
  agingPeriod : t.agingPeriod = s.agingPeriod
  agingCount : t.agingCount = s.agingCount

theorem SoundOnly.rfl (l : Lot) (s : State) : SoundOnly l s s := by
  constructor <;> first | rfl | (intros; rfl)

theorem SoundOnly.after {l : Lot} {s t u : State} (h : SoundOnly l t u) (g : SoundOnly l s t) :
    SoundOnly l s u where
  pending := h.pending.trans g.pending
  session := h.session.trans g.session
  clock := h.clock.trans g.clock
  tagSeq := h.tagSeq.trans g.tagSeq
  orderSeq := h.orderSeq.trans g.orderSeq
  placeSeq := h.placeSeq.trans g.placeSeq
  slot := h.slot.trans g.slot
  passes := h.passes.trans g.passes
  stalls := h.stalls.trans g.stalls
  lots := h.lots.trans g.lots
  untagged := h.untagged.trans g.untagged
  transitLimit := h.transitLimit.trans g.transitLimit
  vacateGrace := h.vacateGrace.trans g.vacateGrace
  lanes := h.lanes.trans g.lanes
  loops := h.loops.trans g.loops
  programmes := h.programmes.trans g.programmes
  booths := h.booths.trans g.booths
  lines := fun k hk => (h.lines k hk).trans (g.lines k hk)
  channels := fun k hk => (h.channels k hk).trans (g.channels k hk)
  master := h.master.trans g.master
  orders := h.orders.trans g.orders
  prices := h.prices.trans g.prices
  queue := h.queue.trans g.queue
  held := h.held.trans g.held
  stations := h.stations.trans g.stations
  agingPeriod := h.agingPeriod.trans g.agingPeriod
  agingCount := h.agingCount.trans g.agingCount

theorem setLine_soundOnly (l : Lot) (x : LineCtx) (s : State) : SoundOnly l s (s.setLine l x) := by
  constructor <;> first | rfl | (intro k hk; first | rfl | exact lineAt_setLine_ne s (Ne.symm hk) x)

theorem setChannel_soundOnly (l : Lot) (x : ChannelCtx) (s : State) :
    SoundOnly l s (s.setChannel l x) := by
  constructor <;>
    first | rfl | (intro k hk; first | rfl | exact channelAt_setChannel_ne s (Ne.symm hk) x)

theorem raiseNotice_soundOnly (l : Lot) (k : NoticeKind) (bit : Nat) (s : State) :
    SoundOnly l s (raiseNotice k bit s) := by
  constructor <;> first | rfl | (intros; rfl)

theorem raiseLot_soundOnly (l m : Lot) (k : NoticeKind) (s : State) :
    SoundOnly l s (raiseLot k m s) := raiseNotice_soundOnly l k _ s

theorem raiseLotIf_soundOnly (l m : Lot) (c : Bool) (k : NoticeKind) (s : State) :
    SoundOnly l s (raiseLotIf c k m s) := by
  unfold raiseLotIf; split
  · exact raiseLot_soundOnly l m k s
  · exact SoundOnly.rfl l s

theorem sendCommand_soundOnly (l : Lot) (cmd : BoothCmd) (s : State) :
    SoundOnly l s (sendCommand l cmd s) := setLine_soundOnly l _ s

theorem portGoDown_soundOnly (l : Lot) (met : Option Issuer) (s : State) :
    SoundOnly l s (portGoDown l met s) :=
  (raiseLot_soundOnly l l _ _).after (setLine_soundOnly l _ s)

theorem issueCommand_soundOnly (l : Lot) (b : Issuer) (cmd : BoothCmd) (s : State) :
    SoundOnly l s (issueCommand l b cmd s) := by
  unfold issueCommand
  dsimp only
  split
  · exact SoundOnly.rfl l s
  · split
    · exact sendCommand_soundOnly l cmd s
    · split
      · exact setLine_soundOnly l _ s
      · exact portGoDown_soundOnly l _ s

theorem handDrive_soundOnly (l : Lot) (code : Nat) (s : State) :
    SoundOnly l s (handDrive l code s) := by
  unfold handDrive
  dsimp only
  split
  · exact SoundOnly.rfl l s
  · split
    · exact (sendCommand_soundOnly l _ _).after (setLine_soundOnly l _ s)
    · exact setLine_soundOnly l _ s

theorem offerDrive_soundOnly (l : Lot) (code : Nat) (s : State) :
    SoundOnly l s (offerDrive l code s) := by
  unfold offerDrive
  split
  · exact SoundOnly.rfl l s
  · exact handDrive_soundOnly l code s

theorem sendNext_soundOnly (l : Lot) (s : State) : SoundOnly l s (sendNext l s) := by
  unfold sendNext
  dsimp only
  split
  · exact (sendCommand_soundOnly l _ _).after (setLine_soundOnly l _ s)
  · split
    · exact (sendCommand_soundOnly l _ _).after (setLine_soundOnly l _ s)
    · exact SoundOnly.rfl l s

theorem takeAck_soundOnly (l : Lot) (n : Nat) (s : State) : SoundOnly l s (takeAck l n s) := by
  unfold takeAck
  dsimp only
  split
  · exact SoundOnly.rfl l s
  · split
    · exact (sendNext_soundOnly l _).after (setLine_soundOnly l _ s)
    · exact SoundOnly.rfl l s

theorem resend_soundOnly (l : Lot) (f : InFlight) (s : State) : SoundOnly l s (resend l f s) :=
  setLine_soundOnly l _ s

theorem dropFrame_soundOnly (l : Lot) (s : State) : SoundOnly l s (dropFrame l s) :=
  setLine_soundOnly l _ s

theorem portComeUp_soundOnly (l : Lot) (s : State) : SoundOnly l s (portComeUp l s) :=
  (setLine_soundOnly l _ _).after
    ((issueCommand_soundOnly l _ _ _).after
      ((raiseLot_soundOnly l l _ _).after (setLine_soundOnly l _ s)))

theorem addConditions_soundOnly (l : Lot) (met : Conds) (cause : Option Cause) (s : State) :
    SoundOnly l s (addConditions l met cause s) :=
  (raiseLotIf_soundOnly l l _ _ _).after (setChannel_soundOnly l _ s)

theorem evaluate_soundOnly (l : Lot) (cause : Cause) (prior : Conds) (s : State) :
    SoundOnly l s (evaluate l cause prior s) :=
  (offerDrive_soundOnly l _ _).after
    ((addConditions_soundOnly l _ _ _).after (setChannel_soundOnly l _ s))

theorem switchSource_soundOnly (l : Lot) (src : Source) (s : State) :
    SoundOnly l s (switchSource l src s) := by
  unfold switchSource
  dsimp only
  split
  · exact SoundOnly.rfl l s
  · exact (issueCommand_soundOnly l _ _ _).after (setChannel_soundOnly l _ s)

theorem storeSegmentLevel_soundOnly (l : Lot) (level : Option LevelWord) (s : State) :
    SoundOnly l s (storeSegmentLevel l level s) := by
  cases level
  · exact SoundOnly.rfl l s
  · exact setChannel_soundOnly l _ s

theorem handOff_soundOnly (l : Lot) (src : Source) (cause : Cause) (level : Option LevelWord)
    (s : State) : SoundOnly l s (handOff l src cause level s) :=
  (evaluate_soundOnly l _ _ _).after
    ((storeSegmentLevel_soundOnly l _ _).after (switchSource_soundOnly l _ s))

theorem startAnnouncement_soundOnly (l : Lot) (seconds : Nat) (s : State) :
    SoundOnly l s (startAnnouncement l seconds s) := by
  unfold startAnnouncement
  dsimp only
  split
  · exact setChannel_soundOnly l _ s
  · exact (evaluate_soundOnly l _ _ _).after
      ((issueCommand_soundOnly l _ _ _).after (setChannel_soundOnly l _ s))

theorem endAnnouncement_soundOnly (l : Lot) (s : State) : SoundOnly l s (endAnnouncement l s) := by
  unfold endAnnouncement
  dsimp only
  split
  · exact (evaluate_soundOnly l _ _ _).after
      ((issueCommand_soundOnly l _ _ _).after (setChannel_soundOnly l _ s))
  · exact SoundOnly.rfl l s

theorem takeProbe_soundOnly (l : Lot) (w : LevelWord) (s : State) :
    SoundOnly l s (takeProbe l w s) := by
  unfold takeProbe
  dsimp only
  split
  · exact (evaluate_soundOnly l _ _ _).after (setChannel_soundOnly l _ s)
  · exact SoundOnly.rfl l s

/-! ## The port operations leave the channels, and the channel keeps what it computed -/

theorem setOlp_channelAt' (o : Olp) (l : Lot) (s : State) :
    (s.setOlp o).channelAt l = s.channelAt l := rfl

@[simp] theorem raiseNotice_channelAt (k : NoticeKind) (bit : Nat) (l : Lot) (s : State) :
    (raiseNotice k bit s).channelAt l = s.channelAt l := rfl
@[simp] theorem raiseLot_channelAt (k : NoticeKind) (m l : Lot) (s : State) :
    (raiseLot k m s).channelAt l = s.channelAt l := rfl
@[simp] theorem raiseLotIf_channelAt (c : Bool) (k : NoticeKind) (m l : Lot) (s : State) :
    (raiseLotIf c k m s).channelAt l = s.channelAt l := by
  unfold raiseLotIf; split <;> rfl
@[simp] theorem raiseLotIf_lineAt (c : Bool) (k : NoticeKind) (m l : Lot) (s : State) :
    (raiseLotIf c k m s).lineAt l = s.lineAt l := by
  unfold raiseLotIf; split <;> rfl
@[simp] theorem raiseLot_lineAt (k : NoticeKind) (m l : Lot) (s : State) :
    (raiseLot k m s).lineAt l = s.lineAt l := rfl
@[simp] theorem sendCommand_channelAt (l m : Lot) (cmd : BoothCmd) (s : State) :
    (sendCommand l cmd s).channelAt m = s.channelAt m := rfl
@[simp] theorem issueCommand_channelAt (l m : Lot) (b : Issuer) (cmd : BoothCmd) (s : State) :
    (issueCommand l b cmd s).channelAt m = s.channelAt m := by
  unfold issueCommand
  dsimp only
  split
  · rfl
  · split
    · rfl
    · split <;> rfl
@[simp] theorem handDrive_channelAt (l m : Lot) (code : Nat) (s : State) :
    (handDrive l code s).channelAt m = s.channelAt m := by
  unfold handDrive
  dsimp only
  split
  · rfl
  · split <;> rfl
@[simp] theorem offerDrive_channelAt (l m : Lot) (code : Nat) (s : State) :
    (offerDrive l code s).channelAt m = s.channelAt m := by
  unfold offerDrive
  split
  · rfl
  · exact handDrive_channelAt l m code s
@[simp] theorem addConditions_channelAt (l : Lot) (met : Conds) (cause : Option Cause) (s : State) :
    (addConditions l met cause s).channelAt l =
      { s.channelAt l with
        conds := (s.channelAt l).conds.union met
        lastCause := if (met.diff (s.channelAt l).conds).any then cause.or (s.channelAt l).lastCause
          else (s.channelAt l).lastCause } := by
  simp [addConditions]
@[simp] theorem addConditions_lineAt (l m : Lot) (met : Conds) (cause : Option Cause) (s : State) :
    (addConditions l met cause s).lineAt m = s.lineAt m := by
  simp [addConditions]

/-- R131: the channel after an evaluation. -/
theorem evaluate_channelAt (l : Lot) (cause : Cause) (prior : Conds) (s : State) :
    (evaluate l cause prior s).channelAt l =
      let c := s.channelAt l
      let g := gainChain c.policy (segmentFactor c) c.trim c.corr (duckFactor c) s.master
      let met := (prior.union g.2).union (Conds.ofReport (fix g.1).2)
      { c with
        gain := g.1
        drive := (fix g.1).1
        conds := c.conds.union met
        lastCause := if (met.diff c.conds).any then some cause else c.lastCause } := by
  simp [evaluate]

end Sys2Proof.Laws
end

