-- ==== Sys2Proof/Laws/Windows.lean ====
section
/-! SUPPORT. What releases and window derivations can do: a release touches orders, queue and held list; a
derivation touches besides only the lot's window and the general-call slots. -/

namespace Sys2Proof.Laws

open Sys2Proof.Machine

/-- `t` is `s` but for orders, kitchen queue and held list. -/
def QueueOnly (s t : State) : Prop := t = { s with orders := t.orders, queue := t.queue, held := t.held }

theorem QueueOnly.refl (s : State) : QueueOnly s s := rfl

theorem QueueOnly.after {s t u : State} (h : QueueOnly t u) (g : QueueOnly s t) : QueueOnly s u := by
  unfold QueueOnly at *
  rw [h, g]

theorem enterQueue_queueOnly (n : Nat) (s : State) : QueueOnly s (enterQueue n s) := rfl
theorem enterHeld_queueOnly (n : Nat) (s : State) : QueueOnly s (enterHeld n s) := rfl
theorem leaveQueue_queueOnly (n : Nat) (s : State) : QueueOnly s (leaveQueue n s) := rfl
theorem leaveHeld_queueOnly (n : Nat) (s : State) : QueueOnly s (leaveHeld n s) := rfl
theorem setOrder_queueOnly (n : Nat) (o : OrderRec) (s : State) : QueueOnly s (s.setOrder n o) := rfl
theorem dropOrder_queueOnly (n : Nat) (s : State) : QueueOnly s (s.dropOrder n) := rfl

theorem releaseOrder_queueOnly (level : Nat) (s : State) (n : Nat) :
    QueueOnly s (releaseOrder level s n) := by
  unfold releaseOrder
  split
  · exact QueueOnly.refl s
  · rfl

theorem foldl_queueOnly {α : Type} (f : State → α → State) (h : ∀ s a, QueueOnly s (f s a))
    (xs : List α) (s : State) : QueueOnly s (xs.foldl f s) := by
  induction xs generalizing s with
  | nil => exact QueueOnly.refl s
  | cons x xs ih => exact (ih (f s x)).after (h s x)

/-- R178: a release changes orders, queue and held list alone. -/
theorem releaseHeld_queueOnly (l : Lot) (level : Nat) (s : State) :
    QueueOnly s (releaseHeld l level s) :=
  foldl_queueOnly _ (releaseOrder_queueOnly level) _ s

/-- `t` is `s` but for the lots' windows, the loops, orders, queue and held list. -/
structure WindowOnly (s t : State) : Prop where
  rest : t = { s with
    lots := t.lots, loops := t.loops, orders := t.orders, queue := t.queue, held := t.held }
  lots : ∀ l, t.lotAt l = { s.lotAt l with window := (t.lotAt l).window }
  units : ∀ n, t.loopAt n = { s.loopAt n with callSlot := (t.loopAt n).callSlot }

theorem WindowOnly.refl (s : State) : WindowOnly s s := ⟨rfl, fun _ => rfl, fun _ => rfl⟩

theorem WindowOnly.after {s t u : State} (h : WindowOnly t u) (g : WindowOnly s t) :
    WindowOnly s u := by
  refine ⟨?_, fun l => ?_, fun n => ?_⟩
  · rw [h.rest, g.rest]
  · rw [h.lots, g.lots]
  · rw [h.units, g.units]

theorem QueueOnly.windowOnly {s t : State} (h : QueueOnly s t) : WindowOnly s t := by
  unfold QueueOnly at h
  refine ⟨?_, fun l => ?_, fun n => ?_⟩ <;> rw [h] <;> rfl

theorem askGeneralCall_windowOnly (l : Lot) (code : Nat) (s : State) :
    WindowOnly s (askGeneralCall l code s) := by
  refine ⟨rfl, fun _ => rfl, fun n => ?_⟩
  have key : ∀ (m : LoopId) (u : State), WindowOnly u
      (u.setLoop m { u.loopAt m with callSlot := some code }) := by
    intro m u
    refine ⟨rfl, fun _ => rfl, fun k => ?_⟩
    by_cases hk : m = k
    · subst hk; simp
    · rw [loopAt_setLoop_ne u hk]
  exact (((key (secondLoop l) _).after (key (firstLoop l) s)).units n)

theorem setWindow_windowOnly (l : Lot) (w : Window) (s : State) :
    WindowOnly s (s.setLot l { s.lotAt l with window := w }) := by
  refine ⟨rfl, fun k => ?_, fun _ => rfl⟩
  by_cases hk : l = k
  · subst hk; simp
  · rw [lotAt_setLot_ne s hk]

/-- R149, R150: a derivation changes windows, general-call slots, orders, queue and held list alone. -/
theorem deriveWindow_windowOnly (l : Lot) (s : State) : WindowOnly s (deriveWindow l s) := by
  unfold deriveWindow
  dsimp only
  split
  · exact WindowOnly.refl s
  · split
    · exact (releaseHeld_queueOnly l _ _).windowOnly.after
        ((askGeneralCall_windowOnly l _ _).after (setWindow_windowOnly l _ s))
    · exact (askGeneralCall_windowOnly l _ _).after (setWindow_windowOnly l _ s)

theorem WindowOnly.olp {s t : State} (h : WindowOnly s t) : t.olp = s.olp := by rw [h.rest]
theorem WindowOnly.booths {s t : State} (h : WindowOnly s t) : t.booths = s.booths := by rw [h.rest]
theorem WindowOnly.programmes {s t : State} (h : WindowOnly s t) : t.programmes = s.programmes := by
  rw [h.rest]

/-- R149: the window derived depends on session, booth and programme alone. -/
theorem windowDerived_of_windowOnly {s t : State} (h : WindowOnly s t) (l : Lot) :
    windowDerived t l = windowDerived s l := by
  simp only [windowDerived, currentEntry, State.boothAt, State.programmeAt, h.olp, h.booths,
    h.programmes]
  rfl

/-- R149, R150: after a derivation the lot's window is the one derived. -/
theorem deriveWindow_window (l : Lot) (s : State) :
    ((deriveWindow l s).lotAt l).window = windowDerived s l := by
  unfold deriveWindow
  dsimp only
  split
  · assumption
  · split
    · have h := releaseHeld_queueOnly l ((s.lotAt l).rushLevel)
        (askGeneralCall l (windowCode (windowDerived s l))
          (s.setLot l { s.lotAt l with window := windowDerived s l }))
      rw [h.windowOnly.lots, h]
      show ((s.setLot l { s.lotAt l with window := windowDerived s l }).lotAt l).window = _
      simp
    · show ((s.setLot l { s.lotAt l with window := windowDerived s l }).lotAt l).window = _
      simp

/-- R149: a derivation for one lot leaves every other lot's record. -/
theorem deriveWindow_lotAt_ne {l k : Lot} (h : l ≠ k) (s : State) :
    (deriveWindow l s).lotAt k = s.lotAt k := by
  unfold deriveWindow
  dsimp only
  split
  · rfl
  · split
    · have g := releaseHeld_queueOnly l ((s.lotAt l).rushLevel)
        (askGeneralCall l (windowCode (windowDerived s l))
          (s.setLot l { s.lotAt l with window := windowDerived s l }))
      have e : (releaseHeld l ((s.lotAt l).rushLevel)
          (askGeneralCall l (windowCode (windowDerived s l))
            (s.setLot l { s.lotAt l with window := windowDerived s l }))).lots =
          (askGeneralCall l (windowCode (windowDerived s l))
            (s.setLot l { s.lotAt l with window := windowDerived s l })).lots := by rw [g]
      exact (congrArg (fun b => bankGet b k) e).trans (lotAt_setLot_ne s h _)
    · exact lotAt_setLot_ne s h _

/-- A derivation for each of a list of lots. -/
theorem deriveAll_windowOnly (ls : List Lot) (s : State) :
    WindowOnly s (ls.foldl (fun t l => deriveWindow l t) s) := by
  induction ls generalizing s with
  | nil => exact WindowOnly.refl s
  | cons l ls ih => exact (ih _).after (deriveWindow_windowOnly l s)

theorem deriveAll_window (ls : List Lot) (s : State) (k : Lot) :
    ((ls.foldl (fun t l => deriveWindow l t) s).lotAt k).window =
      if k ∈ ls then windowDerived s k else (s.lotAt k).window := by
  induction ls generalizing s with
  | nil => simp
  | cons l ls ih =>
    simp only [List.foldl_cons, ih, windowDerived_of_windowOnly (deriveWindow_windowOnly l s)]
    by_cases hk : k ∈ ls
    · simp [hk]
    · simp only [hk, if_false, List.mem_cons, or_false]
      by_cases he : k = l
      · subst he; simp [deriveWindow_window]
      · have : l ≠ k := fun e => he e.symm
        simp [he, deriveWindow_lotAt_ne this]

/-- R149, R187: after a change of session every lot's window is the one derived. -/
theorem changeSession_window (x : Session) (s : State) (k : Lot) :
    ((changeSession x s).lotAt k).window =
      windowDerived (s.setOlp { s.olp with session := x }) k := by
  have h : k ∈ allLots := by revert k; decide
  unfold changeSession
  rw [deriveAll_window]
  simp [h]

/-- R187: what a change of session can do beside the session itself. -/
theorem changeSession_windowOnly (x : Session) (s : State) :
    WindowOnly (s.setOlp { s.olp with session := x }) (changeSession x s) :=
  deriveAll_windowOnly allLots _

end Sys2Proof.Laws
end

