-- ==== Sys2Proof/Laws/Orders.lean ====
section
/-! SUPPORT. What the shared operations of the Order Table and the Kitchen Dispatcher can do: the lamp, the
kitchen queue and the held list, the creation and placement of an order, and the freeing of one. -/

namespace Sys2Proof.Laws

open Sys2Proof.Machine

/-! ## Lamps -/

/-- R158: a relamp writes the lamp of the stall of the order's pass and no other stall. -/
theorem relamp_stallAt (tag : Option Nat) (s : State) (k : Lot) (m : Nat) :
    (relamp tag s).stallAt k m = if tag.bind (stallOfTag s) = some (k, m) then
      { s.stallAt k m with lampDesired := lampWanted s.orders (s.stallAt k m) } else s.stallAt k m := by
  unfold relamp
  split
  · rename_i l n h
    simp only [relampStall, stallAt_setStall_if, h, Option.some.injEq, Prod.mk.injEq]
    by_cases hk : l = k ∧ n = m
    · obtain ⟨rfl, rfl⟩ := hk; simp
    · simp [hk]
  · rename_i h; simp [h]

/-- A relamp changes the stalls alone. -/
theorem relamp_rest (tag : Option Nat) (s : State) :
    relamp tag s = { s with stalls := (relamp tag s).stalls } := by
  unfold relamp
  split <;> rfl

/-- An untagged order has no lamp. -/
@[simp] theorem relamp_none (s : State) : relamp none s = s := rfl

@[simp] theorem relamp_orders (tag : Option Nat) (s : State) : (relamp tag s).orders = s.orders := by
  rw [relamp_rest]
@[simp] theorem relamp_orderAt (tag : Option Nat) (s : State) (n : Nat) :
    (relamp tag s).orderAt n = s.orderAt n := by simp [State.orderAt]
@[simp] theorem relamp_passes (tag : Option Nat) (s : State) : (relamp tag s).passes = s.passes := by
  rw [relamp_rest]
@[simp] theorem relamp_passAt (tag : Option Nat) (s : State) (n : Nat) :
    (relamp tag s).passAt n = s.passAt n := by simp [State.passAt]
@[simp] theorem relamp_olp (tag : Option Nat) (s : State) : (relamp tag s).olp = s.olp := by
  rw [relamp_rest]
@[simp] theorem relamp_queue (tag : Option Nat) (s : State) : (relamp tag s).queue = s.queue := by
  rw [relamp_rest]
@[simp] theorem relamp_held (tag : Option Nat) (s : State) : (relamp tag s).held = s.held := by
  rw [relamp_rest]
@[simp] theorem relamp_stations (tag : Option Nat) (s : State) :
    (relamp tag s).stations = s.stations := by rw [relamp_rest]
@[simp] theorem relamp_stationAt (tag : Option Nat) (s : State) (k : Fin 4) :
    (relamp tag s).stationAt k = s.stationAt k := by simp [State.stationAt]

/-- The stall of a tag is read from the passes alone. -/
theorem stallOfTag_congr {s t : State} (h : t.passes = s.passes) (tag : Nat) :
    stallOfTag t tag = stallOfTag s tag := by simp [stallOfTag, State.passAt, h]

/-! ## The kitchen queue and the held list -/

/-- An insertion adds the number and keeps the rest. -/
theorem mem_insertBy (before : Nat → Nat → Bool) (n m : Nat) (q : List Nat) :
    m ∈ insertBy before n q ↔ m = n ∨ m ∈ q := by
  induction q with
  | nil => simp [insertBy]
  | cons a q ih =>
    unfold insertBy
    split
    · simp
    · simp [ih]; tauto

/-- An insertion is a permutation of the number and the list. -/
theorem insertBy_perm (before : Nat → Nat → Bool) (n : Nat) (q : List Nat) :
    (insertBy before n q).Perm (n :: q) := by
  induction q with
  | nil => exact List.Perm.refl _
  | cons a q ih =>
    unfold insertBy
    split
    · exact List.Perm.refl _
    · exact (List.Perm.cons a ih).trans (List.Perm.swap n a q)

/-- R167: where "before" is a strict weak order, an insertion keeps a list in order. -/
theorem insertBy_ordered (before : Nat → Nat → Bool)
    (asym : ∀ a b, before a b = true → before b a = false)
    (trans : ∀ a b c, before a b = true → before c b = false → before c a = false)
    (n : Nat) (q : List Nat) (h : q.Pairwise fun a b => before b a = false) :
    (insertBy before n q).Pairwise fun a b => before b a = false := by
  induction q with
  | nil => simp [insertBy]
  | cons a q ih =>
    rw [List.pairwise_cons] at h
    unfold insertBy
    split
    · rename_i hb
      refine List.pairwise_cons.2 ⟨fun b hb' => ?_, List.pairwise_cons.2 h⟩
      rcases List.mem_cons.1 hb' with rfl | hm
      · exact asym _ _ hb
      · exact trans _ _ _ hb (h.1 _ hm)
    · rename_i hb
      refine List.pairwise_cons.2 ⟨fun b hb' => ?_, ih h.2⟩
      rcases (mem_insertBy _ _ _ _).1 hb' with rfl | hm
      · simpa using hb
      · exact h.1 _ hm

/-- R167: no order stands before one that stands before it. -/
theorem queueBefore_asym (orders : Table OrderRec) (a b : Nat) (h : queueBefore orders a b = true) :
    queueBefore orders b a = false := by
  simp only [queueBefore, Bool.or_eq_true, decide_eq_true_eq, Bool.and_eq_true] at h
  simp only [queueBefore, Bool.or_eq_false_iff, decide_eq_false_iff_not, Bool.and_eq_false_iff]
  omega

/-- R167: the order of the queue carries over. -/
theorem queueBefore_trans (orders : Table OrderRec) (a b c : Nat) (h : queueBefore orders a b = true)
    (h2 : queueBefore orders c b = false) : queueBefore orders c a = false := by
  simp only [queueBefore, Bool.or_eq_true, decide_eq_true_eq, Bool.and_eq_true] at h
  simp only [queueBefore, Bool.or_eq_false_iff, decide_eq_false_iff_not, Bool.and_eq_false_iff] at h2 ⊢
  omega

/-- R167: entering the queue keeps its order. -/
theorem insertBy_queueBefore (orders : Table OrderRec) (n : Nat) (q : List Nat)
    (h : q.Pairwise fun a b => queueBefore orders b a = false) :
    (insertBy (queueBefore orders) n q).Pairwise fun a b => queueBefore orders b a = false :=
  insertBy_ordered _ (queueBefore_asym orders) (queueBefore_trans orders) n q h

/-- R176: a whole queue entered anew stands in order. -/
theorem requeue_ordered (orders : Table OrderRec) (ns q : List Nat)
    (h : q.Pairwise fun a b => queueBefore orders b a = false) :
    (ns.foldl (fun q n => insertBy (queueBefore orders) n q) q).Pairwise
      fun a b => queueBefore orders b a = false := by
  induction ns generalizing q with
  | nil => exact h
  | cons n ns ih => exact ih _ (insertBy_queueBefore orders n q h)

/-- R176: a queue entered anew holds what it held. -/
theorem requeue_perm (orders : Table OrderRec) (ns q : List Nat) :
    (ns.foldl (fun q n => insertBy (queueBefore orders) n q) q).Perm (ns ++ q) := by
  induction ns generalizing q with
  | nil => exact List.Perm.refl _
  | cons n ns ih =>
    refine (ih _).trans ?_
    refine (List.Perm.append_left ns (insertBy_perm _ n q)).trans ?_
    simp

/-! ## Creation, placement and freeing -/

/-- R188: an order freed while no close is under way ends no session. -/
theorem closeIfEmpty_of_ne {s : State} (h : s.olp.session ≠ .closing) : closeIfEmpty s = s := by
  simp [closeIfEmpty, h]

/-- R145: creating an order writes its record and moves the sequence on. -/
theorem createOrder_eq (o : OrderRec) (s : State) :
    createOrder o s = (s.setOrder (nextOrderNumber s) o).setOlp { s.olp with
      orderSeq := stepSequence Config.maxOrderNumber (nextOrderNumber s) } := rfl

/-- R157: what a placement writes in the order. -/
def placedRecord (o : OrderRec) (held : Bool) (level : Nat) (s : State) : OrderRec :=
  { o with
    state := if held then .held else .placed
    level := some level, seq := some s.olp.placeSeq, placedTime := some s.olp.clock
    lastRaise := some s.olp.clock, draftDeadline := none }

/-- R157: what a placement can do. -/
theorem placeOrder_eq {n : Nat} {s : State} {o : OrderRec} (held : Bool) (level : Nat)
    (h : s.orderAt n = some o) :
    placeOrder n held level s = relamp o.tag
      { s with
        orders := Table.insert s.orders n (placedRecord o held level s)
        olp := { s.olp with placeSeq := stepSequence Config.maxPlacement s.olp.placeSeq }
        queue := if held then s.queue
          else insertBy (queueBefore (Table.insert s.orders n (placedRecord o held level s))) n s.queue
        held := if held then
            insertBy (seqBefore (Table.insert s.orders n (placedRecord o held level s))) n s.held
          else s.held } := by
  cases held <;> simp only [placeOrder, h] <;> rfl

/-- R21: what a charge within the limit does. -/
theorem chargeTab_eq {tag amount : Nat} {s : State} {p : PassRec} (h : s.passAt tag = some p)
    (hm : p.tab + amount ≤ Config.maxTab) :
    chargeTab tag amount s = s.setPass tag { p with tab := p.tab + amount } := by
  simp only [chargeTab, h, raiseLotIf, chargedTab, Nat.min_eq_left hm]
  simp [Nat.not_lt.2 hm]

end Sys2Proof.Laws
end

