-- ==== Sys2Proof/Laws/Ticks.lean ====
section
/-! SUPPORT. What a second of the time base does: with no count at zero it is the counting alone, which
lowers each record on its own; and what an ACK does by the state its line was in. -/

namespace Sys2Proof.Laws

open Sys2Proof.Machine

/-- Nothing is due: no expiry is taken. -/
theorem takeExpiries_of_none_due {s : State} (h : dueExpiries s = []) : takeExpiries s = s := by
  rw [takeExpiries, h]
  rfl

/-- R190: with no count at zero the second is counted and nothing else. -/
theorem tickSecond_of_none_due {s : State} (h : dueExpiries s = []) :
    tickSecond s = countSecond s := by
  rw [tickSecond, takeExpiries_of_none_due h]

@[simp] theorem countSecond_boothAt (s : State) (l : Lot) :
    (countSecond s).boothAt l = tickBooth (s.boothAt l) := bankGet_map _ _ _

@[simp] theorem countSecond_channelAt (s : State) (l : Lot) :
    (countSecond s).channelAt l = tickChannel (s.channelAt l) := bankGet_map _ _ _

@[simp] theorem countSecond_lotAt (s : State) (l : Lot) : (countSecond s).lotAt l = s.lotAt l := rfl
@[simp] theorem countSecond_laneAt (s : State) (l : Lot) : (countSecond s).laneAt l = s.laneAt l := rfl
@[simp] theorem countSecond_lineAt (s : State) (l : Lot) : (countSecond s).lineAt l = s.lineAt l := rfl
@[simp] theorem countSecond_loopAt (s : State) (n : LoopId) :
    (countSecond s).loopAt n = s.loopAt n := rfl
@[simp] theorem countSecond_programmeAt (s : State) (l : Lot) :
    (countSecond s).programmeAt l = s.programmeAt l := rfl
@[simp] theorem countSecond_priceAt (s : State) (i : Nat) :
    (countSecond s).priceAt i = s.priceAt i := rfl

@[simp] theorem lowered_none : lowered none = none := rfl
@[simp] theorem lowered_some (n : Nat) : lowered (some n) = some (n - 1) := rfl

/-- R109: an ACK on a line that was UP is taken. -/
@[simp] theorem ackOn_up (l : Lot) (n : Nat) (s : State) : ackOn true l n s = takeAck l n s := rfl
/-- R112: the ACK that brought the line UP is ignored. -/
@[simp] theorem ackOn_down (l : Lot) (n : Nat) (s : State) : ackOn false l n s = s := rfl

end Sys2Proof.Laws
end

