-- ==== Sys2Proof/Tests/Slice0.lean ====
section
/-! SUPPORT. The model's own tests: ill-formed commands are refused by `WellFormed`, office frames written
out byte by byte from R191 spell their requests, worked cases of the manual come out as printed, and every
statement with hypotheses has a state that meets them. -/

namespace Sys2Proof.Tests

set_option Elab.async false

open Sys2Proof Sys2Proof.Machine Sys2Proof.Safety

/-! ## Well-formedness: one ill-formed command for each check -/

theorem test_wf_byte : WellFormed.instr (.readLot 0 256) = false := by decide
theorem test_wf_two : WellFormed.instr (.readPass 0 65536) = false := by decide
theorem test_wf_three : WellFormed.instr (.setClock 0 16777216) = false := by decide
theorem test_wf_opt : WellFormed.instr (.setTimers 0 (some 65536) none) = false := by decide
theorem test_wf_word : WellFormed.instr (.setMaster 0 ⟨8, 0⟩) = false ∧
    WellFormed.instr (.setMaster 0 ⟨0, 8192⟩) = false := by decide
theorem test_wf_optWord :
    WellFormed.instr (.editSegment 0 1 1 ⟨0, some 1, some ⟨8, 0⟩, none⟩) = false := by decide
theorem test_wf_entry : WellFormed.instr (.editSegment 0 1 1 ⟨256, none, none, none⟩) = false := by
  decide
theorem test_wf_entries : WellFormed.instr
    (.loadProgramme 0 1 (List.replicate 256 ⟨3, none, none, none⟩)) = false := by decide +kernel
theorem test_wf_line : WellFormed.instr (.place (.office 0) none 1 [⟨256, 1⟩]) = false := by decide
theorem test_wf_lines : WellFormed.instr
    (.place (.office 0) none 1 (List.replicate 256 ⟨1, 1⟩)) = false := by decide +kernel
theorem test_wf_fromPost : WellFormed.instr (.keyTag (.terminal true) 1 1 1) = false := by decide
theorem test_wf_fromTerminal : WellFormed.instr (.passed .post 1) = false := by decide
theorem test_wf_fromStation : WellFormed.instr (.ready (.station 5 true) 1) = false := by decide
theorem test_wf_fromHandheld : WellFormed.instr (.pay (.handheld 256 true) 1 1) = false := by decide
theorem test_wf_handheld_tag : WellFormed.instr (.place (.handheld 1 true) none 0 [⟨1, 1⟩]) = false := by
  decide
theorem test_wf_handheld_stall : WellFormed.instr (.deliver (.handheld 1 true) 1 none) = false := by
  decide
theorem test_wf_report : WellFormed.instr (.loopReply 0
    ⟨1, true, false, some ⟨true, 0, .keyTag 65536⟩, .off, .down, none⟩) = false := by decide
theorem test_wf_reply : WellFormed.instr (.loopReply 0
    ⟨256, true, false, none, .off, .down, none⟩) = false := by decide
theorem test_wf_transit : WellFormed.instr (.transitExpiry 10000) = false := by decide
theorem test_wf_grace : WellFormed.instr (.graceExpiry 0 385) = false := by decide
theorem test_wf_draft : WellFormed.instr (.draftExpiry 1000) = false := by decide

/-! ## Office frames, byte by byte (R182, R184, R191): length, code, sequence byte, parameters, check -/

theorem test_frame_setClock : Decode.decodeFrame
    [0, 8, 5, 17, 1, 81, 127, 17] =
      .request (.setClock 0x11 86399) := by decide +kernel
theorem test_frame_closeSession : Decode.decodeFrame
    [0, 5, 3, 0, 248] =
      .request (.closeSession 0) := by decide +kernel
theorem test_frame_setCapacity : Decode.decodeFrame
    [0, 8, 21, 42, 3, 1, 44, 137] =
      .request (.setCapacity 0x2A 3 300) := by decide +kernel
theorem test_frame_setLotLevels : Decode.decodeFrame
    [0, 10, 24, 1, 5, 2, 6, 0, 7, 201] =
      .request (.setLotLevels 1 2 (some 6) none (some 7)) := by decide +kernel
theorem test_frame_keyTag : Decode.decodeFrame
    [0, 10, 30, 9, 1, 0, 88, 2, 0, 116] =
      .request (.keyTag (.office 9) 1 88 512) := by decide +kernel
theorem test_frame_admit : Decode.decodeFrame
    [0, 9, 33, 2, 2, 3, 0, 4, 203] =
      .request (.admitCar (.office 2) 2 3 0 4) := by decide +kernel
theorem test_frame_setFitted : Decode.decodeFrame
    [0, 8, 44, 3, 12, 11, 1, 177] =
      .request (.setFitted 3 12 11 true) := by decide +kernel
theorem test_frame_editSegment : Decode.decodeFrame
    [0, 15, 49, 4, 2, 6, 2, 4, 0, 0, 0, 0, 9, 96, 69] =
      .request (.editSegment 4 2 6 ⟨2, none, none, some 2400⟩) := by decide +kernel
theorem test_frame_loadProgramme : Decode.decodeFrame
    [0, 23, 48, 4, 6, 2, 0, 3, 0, 101, 220, 204, 0, 0, 3, 0, 0, 0, 0, 0, 0, 0, 154] =
      .request (.loadProgramme 4 6 [⟨0, some 101, some ⟨6, 7372⟩, none⟩, ⟨3, none, none, none⟩]) := by decide +kernel
theorem test_frame_resume : Decode.decodeFrame
    [0, 7, 58, 5, 1, 24, 161] =
      .request (.resume 5 1 24) := by decide +kernel
theorem test_frame_readLine : Decode.decodeFrame
    [0, 7, 62, 6, 6, 1, 174] =
      .request (.readLine 6 6 true) := by decide +kernel
theorem test_frame_setTrim : Decode.decodeFrame
    [0, 8, 64, 7, 1, 255, 255, 178] =
      .request (.setTrim 7 1 ⟨7, 8191⟩) := by decide +kernel
theorem test_frame_announce : Decode.decodeFrame
    [0, 8, 73, 7, 12, 0, 30, 126] =
      .request (.announce 7 12 30) := by decide +kernel
theorem test_frame_pay : Decode.decodeFrame
    [0, 10, 82, 8, 2, 128, 15, 66, 63, 138] =
      .request (.pay (.office 8) 640 999999) := by decide +kernel
theorem test_frame_place : Decode.decodeFrame
    [0, 14, 80, 8, 1, 0, 215, 3, 2, 3, 2, 12, 9, 163] =
      .request (.place (.office 8) (some 215) 3 [⟨3, 2⟩, ⟨12, 9⟩]) := by decide +kernel
theorem test_frame_deliver : Decode.decodeFrame
    [0, 11, 81, 8, 1, 0, 61, 1, 0, 88, 5] =
      .request (.deliver (.office 8) 61 (some (1, 88))) := by decide +kernel
theorem test_frame_setLevel : Decode.decodeFrame
    [0, 8, 99, 9, 3, 231, 7, 155] =
      .request (.setLevel 9 999 7) := by decide +kernel

/-- R182: a wrong check, a wrong size and an unknown code. -/
theorem test_frame_refused :
    Decode.decodeFrame [0, 5, 6, 3, 243] = .frameError 3 ∧
    Decode.decodeFrame [0, 6, 6, 3, 0, 241] = .frameError 3 ∧
    Decode.decodeFrame [0, 5, 7, 3, 241] = .unknownRequest 3 := by decide +kernel

/-! ## Level arithmetic: the tables of "normalisation examples" and the worked cases -/

theorem test_normalise : normalise ⟨5, 100⟩ = (⟨2, 6400⟩, none) ∧
    normalise ⟨6, 1000⟩ = (⟨5, 4000⟩, none) ∧ normalise ⟨4, 0⟩ = (⟨0, 0⟩, none) ∧
    normalise ⟨1, 300⟩ = (⟨0, 0⟩, some .LOSS) ∧ normalise ⟨0, 2047⟩ = (⟨0, 0⟩, some .LOSS) := by
  decide +kernel

/-- "a gain chain under an announcement": 345, and CLIP at 4,095 when the announcement ends. -/
theorem test_gain_chain :
    gainChain .flush ⟨6, 6144⟩ ⟨7, 4096⟩ ⟨7, 2048⟩ ⟨5, 2048⟩ ⟨6, 7372⟩ = (⟨5, 2764⟩, Conds.empty) ∧
    fix ⟨5, 2764⟩ = (345, none) ∧ fix ⟨7, 2764⟩ = (4095, some .CLIP) := by decide +kernel

/-- "saturation early in the chain" and "an underflow under each policy". -/
theorem test_saturation_underflow :
    multiply .flush ⟨7, 8191⟩ ⟨7, 8191⟩ = (⟨7, 8191⟩, some .OVER) ∧
    multiply .flush ⟨7, 8191⟩ ⟨5, 2048⟩ = (⟨5, 8191⟩, none) ∧ fix ⟨5, 8191⟩ = (1023, none) ∧
    multiply .flush ⟨2, 2097⟩ ⟨3, 2048⟩ = (⟨0, 0⟩, some .UNDER) ∧
    multiply .floor ⟨2, 2097⟩ ⟨3, 2048⟩ = (⟨0, 2048⟩, some .UNDER) ∧
    multiply .floor ⟨0, 2048⟩ ⟨6, 7372⟩ = (⟨0, 2048⟩, some .UNDER) ∧
    fix ⟨0, 2048⟩ = (0, some .LOSS) := by decide +kernel

/-- "auto-level ratios" and "a shifted divide and an underflowing quotient". -/
theorem test_divide :
    divide .flush ⟨6, 4096⟩ ⟨6, 6553⟩ = (some ⟨6, 5120⟩, none) ∧
    divide .flush ⟨6, 4096⟩ ⟨2, 2048⟩ = (some ⟨7, 8191⟩, some .OVER) ∧
    divide .flush ⟨6, 7372⟩ ⟨6, 4096⟩ = (some ⟨7, 3686⟩, none) ∧
    divide .floor ⟨0, 2048⟩ ⟨7, 8191⟩ = (some ⟨0, 2048⟩, some .UNDER) := by decide +kernel

/-! ## States for the tests -/

/-- The state a command leaves, or the state it was given if it stopped. -/
def after (i : Instr) (s : State) : State :=
  match exec i s with
  | .next t => t
  | .fault _ => s
  | .refused _ => s

/-- A pass of a lot: PARKED at a stall, or IN_TRANSIT. -/
def pass (l : Lot) (stall : Option Nat) (tab party : Nat) : PassRec :=
  { state := if stall.isSome then .parked else .inTransit, lot := l, fee := .car, party := party,
    lane := none, stall := stall, admitTime := 0, transit := if stall.isSome then none else some 0,
    overdue := false, tab := tab }

/-- A stall bound to a tag. -/
def bound (tag : Nat) : StallRec := { StallRec.fresh with state := .occupied, tag := some tag }

/-- A lot with room for `n` cars more and `h` heads. -/
def roomFor (n h : Nat) : LotRec := { LotRec.fresh with capacity := n, headLimit := h }

/-- Reset with one pass, parked at its stall if it has one. -/
def withCar (tag : Nat) (p : PassRec) (s : State) : State :=
  match p.stall with
  | some n => (s.setPass tag p).setStall p.lot n (bound tag)
  | none => s.setPass tag p

/-- An order of a tag in a state; a DRAFT has neither level nor sequence. -/
def order (x : OrderState) (tag : Option Nat) (level seq total last : Nat) (station : Option Nat) :
    OrderRec :=
  { state := x, tag := tag, source := .office
    level := if x = .draft then none else some level, seq := if x = .draft then none else some seq
    lines := [⟨3, 1, total⟩], total := total, placedTime := some 0, lastRaise := some last
    station := station, draftDeadline := if x = .draft then some 0 else none }

/-- The session opened, with the clock at a time. -/
def opened (clock : Nat) (s : State) : State := s.setOlp { s.olp with session := .open, clock := clock }

/-- The answer standing in the office link's slot. -/
def answered (s : State) : Option Answer := s.olp.slot.map fun r => r.answer

/-- An UP line with command 255 in flight and `n` commands waiting. -/
def busyLine (n : Nat) : LineCtx :=
  { LineCtx.fresh with
    up := true, inFlight := some ⟨.motor .a true, 255, 0, 250⟩
    queue := List.replicate n (.announceKey true) }

/-- Reset with a booth, its programme and its line. -/
def show' (l : Lot) (b : BoothCtx) (es : List Segment) (c : LineCtx) : State :=
  ((State.reset.setBooth l b).setProgramme l es).setLine l c

/-- The double feature of Show Programmes. -/
def feature : List Segment :=
  [.snipe 500 ⟨6, 6144⟩, .reel 101 ⟨6, 7372⟩, .reel 102 ⟨6, 7372⟩, .reel 103 ⟨6, 7372⟩,
    .snipe 501 ⟨6, 6144⟩, .intermission 600, .reel 201 ⟨6, 7372⟩, .reel 202 ⟨6, 7372⟩,
    .reel 203 ⟨6, 7372⟩, .finish]

/-- Booth context with a state, a current position, a latched copy and the two projectors. -/
def booth (x : BoothState) (cur : Option Nat) (lat : Option Segment) (a b : ProjCtx) : BoothCtx :=
  { BoothCtx.fresh with state := x, current := cur, latched := lat, projA := a, projB := b }

/-! ## Worked cases of the manual, one step each -/

/-- "a lot transfer and a refusal": pass 77 moves from 3.12 to 5.30. -/
def transfer : State :=
  ((withCar 77 (pass 2 (some 12) 1250 4) State.reset).setLot 2
    { roomFor 300 900 with inside := 42, heads := 121, parked := 38 }).setLot 4
    { roomFor 200 600 with inside := 199, heads := 590, parked := 150 }

theorem test_transfer :
    let t := after (.keyTag .post 5 30 77) transfer
    ((t.lotAt 2).inside, (t.lotAt 2).heads, (t.lotAt 2).parked) = (41, 117, 37) ∧
    ((t.lotAt 4).inside, (t.lotAt 4).heads, (t.lotAt 4).parked) = (200, 594, 151) ∧
    (t.stallAt 2 12).state = .free ∧ (t.stallAt 4 30).display = some 10 := by decide +kernel

/-- "a full lot and a backout": the first admission, to lot 4 at lane 1. -/
def fullLot : State :=
  let s := (State.reset.setLot 3 { roomFor 350 1000 with inside := 349, heads := 995 }).setLane 0
    { LaneCtx.fresh with state := .occupied }
  s.setOlp { s.olp with session := .open, tagSeq := 1203 }

theorem test_admit :
    let t := after (.admitCar (.office 1) 1 4 1 4) fullLot
    t.olp.tagSeq = 1204 ∧ (t.lotAt 3).inside = 350 ∧ (t.lotAt 3).heads = 999 ∧
    (t.laneAt 0).tag = some 1203 ∧ (t.laneAt 0).order = .up := by decide +kernel
theorem test_admit_full :
    answered (after (.admitCar (.office 1) 1 4 0 2)
      (fullLot.setLot 3 { roomFor 350 1000 with inside := 350, heads := 999 })) =
      some (refuse .lotFull) := by decide +kernel

/-- "an exit held for its tab": pass 640 of lot 2 at lane 5. -/
def heldExit (tab : Nat) : State :=
  ((withCar 640 (pass 1 (some 50) tab 3) State.reset).setLot 1
    { roomFor 350 1000 with
      inside := 120, heads := 310, parked := 101, exits := 57, unsettled := 4300 }).setLane 4 { LaneCtx.fresh with state := .occupied }

theorem test_exit_tab_due : answered (after (.exit (.office 1) 5 640) (heldExit 1875)) =
    some { status := .tabDue, data := .values [some 1875] } := by decide +kernel
theorem test_pay_change : answered (after (.pay (.office 1) 640 2000) (heldExit 1875)) =
    some (okWith (.values [some 0, some 125])) := by decide +kernel
theorem test_exit :
    let t := after (.exit (.office 1) 5 640) (heldExit 0)
    ((t.lotAt 1).inside, (t.lotAt 1).heads, (t.lotAt 1).parked, (t.lotAt 1).exits) =
      (119, 307, 100, 58) ∧ (t.lotAt 1).unsettled = 4300 ∧ (t.laneAt 4).order = .up := by
  decide +kernel

/-- "editing a double feature while it runs": Delete 1 with the latch set, after the motor cue. -/
def edited : State :=
  show' 1 (booth .changeoverPending (some 3) (some (.reel 103 ⟨6, 7372⟩)) ⟨.onScreen, some 3⟩
    ⟨.starting, some 4⟩) feature (busyLine 0)

theorem test_delete :
    let t := after (.deleteSegment 1 2 1) edited
    (t.boothAt 1).current = some 2 ∧ (t.boothAt 1).projB.pos = some 3 ∧
    answered t = some (okWith (.values [some 9])) := by decide +kernel
theorem test_edit_latched :
    answered (after (.editSegment 1 2 4 ⟨0, some 103, some ⟨6, 6553⟩, none⟩) edited) =
      some (refuse .latched) := by decide +kernel

/-- "loads refused and taken": the fourth and the fifth list. -/
theorem test_load :
    let s := State.reset.setBooth 3 (booth .ended none none ⟨.spent, some 2⟩ ⟨.spent, some 1⟩)
    let e : EntryParam := ⟨1, some 500, some ⟨6, 6144⟩, none⟩
    answered (after (.loadProgramme 1 4 [e, ⟨2, none, none, some 30⟩, ⟨3, none, none, none⟩]) s) =
      some (refuse .outOfRange) ∧
    let t := after (.loadProgramme 1 4 [e, ⟨2, none, none, some 30⟩, e, ⟨3, none, none, none⟩]) s
    (t.programmeAt 3)[1]? = some (.intermission 60) ∧ (t.boothAt 3).projA = ⟨.spent, none⟩ := by
  decide +kernel

/-- "an on-time and a late changeover": CUE_CHANGE with projector B at speed. -/
theorem test_cue_change :
    let t := after (.cueChange 1 .a) ((show' 1 (booth .changeoverPending (some 3)
      (some (.reel 103 ⟨6, 7372⟩)) ⟨.onScreen, some 3⟩ ⟨.atSpeed, some 4⟩) feature
      (busyLine 0)).setChannel 1 { ChannelCtx.fresh with source := .projA })
    (t.boothAt 1).state = .running ∧ (t.boothAt 1).current = some 4 ∧
    (t.boothAt 1).projA.state = .tailing ∧
    (t.lineAt 1).queue = [.dowser .b true, .dowser .a false, .source .projB] := by decide +kernel

/-- "an intermission with a late start": the deadlines 600 and 588, and LATE_START at the expiry. -/
theorem test_intermission :
    let t := after (.cueChange 1 .a) (show' 1 (booth .running (some 5) (some (.intermission 600))
      ⟨.onScreen, some 5⟩ ⟨.threaded, some 7⟩) feature (busyLine 0))
    (t.boothAt 1).intermission = some 600 ∧ (t.boothAt 1).preRoll = some 588 := by decide +kernel
theorem test_late_start :
    ((after (.intermissionExpiry 1) (show' 1 { booth .intermission (some 6)
      (some (.reel 201 ⟨6, 7372⟩)) ⟨.spent, some 5⟩ ⟨.starting, some 7⟩ with
        intermission := some 0 } feature (busyLine 0))).boothAt 1).state = .lateStart := by
  decide +kernel

/-- "a gap and a halt": RUNOUT with the incoming projector STARTING. -/
theorem test_gap :
    let t := after (.runout 4 .a) ((show' 4 { booth .changeoverPending (some 3)
      (some (.reel 103 ⟨6, 7372⟩)) ⟨.onScreen, some 3⟩ ⟨.starting, some 4⟩ with late := true }
      feature (busyLine 0)).setChannel 4 { ChannelCtx.fresh with source := .projA })
    (t.boothAt 4).gap = true ∧ (t.boothAt 4).projA.state = .spent ∧
    (t.channelAt 4).source = .fill := by decide +kernel

/-- "a changeover over a slow line": ACK 41 sends the SOURCE as 42; ACK 40, late, changes nothing. -/
def slowLine : State :=
  State.reset.setLine 1 { LineCtx.fresh with
    up := true, inFlight := some ⟨.dowser .a false, 41, 1, 250⟩, queue := [.source .projB]
    staged := some 345, lastDrive := some 300, nextNumber := 42 }

theorem test_ack :
    ((after (.ack 1 41) slowLine).lineAt 1).inFlight = some ⟨.source .projB, 42, 0, 250⟩ ∧
    ((after (.ack 1 41) slowLine).lineAt 1).staged = some 345 ∧
    after (.ack 1 40) slowLine = slowLine := by decide +kernel

/-- "a line lost and regained": a CUE_CHANGE brings the line UP and is then ignored. -/
theorem test_line_regained :
    let s := (show' 4 (booth .halted (some 3) none ⟨.spent, some 3⟩ ⟨.threaded, some 4⟩) feature
      { LineCtx.fresh with nextNumber := 201 }).setChannel 4
        { ChannelCtx.fresh with source := .fill, drive := 410 }
    let t := after (.cueChange 4 .a) s
    (t.lineAt 4).inFlight = some ⟨.source .fill, 201, 0, 250⟩ ∧ (t.lineAt 4).staged = some 410 ∧
    (t.noticeOf .lineUp).pending = true ∧ t.boothAt 4 = s.boothAt 4 := by decide +kernel

/-- R112 step 4: the ACK that brings a DOWN line up does not acknowledge the SOURCE just sent as 0. -/
theorem test_ack_brings_line_up :
    ((after (.ack 4 0) State.reset).lineAt 4).inFlight = some ⟨.source .silent, 0, 0, 250⟩ := by
  decide +kernel

/-- "a lot through a show, an announcement and a probe": lot 3's settings. -/
def soundLot (src : Source) : State :=
  { State.reset.setChannel 2 { ChannelCtx.fresh with
      source := src, segLevel := ⟨6, 6144⟩, trim := ⟨6, 4096⟩, target := ⟨6, 4096⟩,
      fill := ⟨5, 4096⟩, duck := ⟨5, 2048⟩, autoLevel := true } with master := ⟨6, 7372⟩ }

theorem test_announce : ((after (.announce 1 12 30) (soundLot .projA)).channelAt 2).drive = 86 := by
  decide +kernel
theorem test_probe :
    let t := after (.probe 2 ⟨6, 6553⟩) ((soundLot .projA).setLine 2 (busyLine 0))
    (t.channelAt 2).corr = ⟨6, 5120⟩ ∧ (t.channelAt 2).gain = ⟨5, 6911⟩ ∧
    (t.lineAt 2).staged = some 863 := by decide +kernel
theorem test_trim_loss :
    let t := after (.setTrim 1 3 ⟨1, 100⟩) (soundLot .fill)
    (t.channelAt 2).drive = 0 ∧ (t.channelAt 2).lastCause = some .trim ∧
    (t.noticeOf .levelAlert).mask = 0x08 := by decide +kernel

/-- "an order keyed at the post": the draft's second line, the submit and the delivery. -/
def keyed (x : OrderState) : State :=
  let s := (withCar 215 (pass 0 (some 88) 600 2) State.reset).setLot 0
    { roomFor 9 9 with window := .open, inside := 1, heads := 2, parked := 1 }
  let s := (s.setPriceRec 12 ⟨true, 225, true⟩).setOrder 61 (order x (some 215) 2 1840 700 0 none)
  let s := if x = .draft then s.setStall 0 88 { bound 215 with draft := some 61 } else s
  s.setOlp { s.olp with session := .open, orderSeq := 62, placeSeq := 1840 }

theorem test_key_line :
    let t := after (.keyLine .post 1 88 12 3) (keyed .draft)
    (t.orderAt 61).map (fun o => o.total) = some 1375 ∧ (t.stallAt 0 88).display = some 41 := by
  decide +kernel
theorem test_key_submit :
    let t := after (.keySubmit .post 1 88 false) (keyed .draft)
    (t.orderAt 61).map (fun o => (o.state, o.level, o.seq)) = some (.placed, some 2, some 1840) ∧
    (t.stallAt 0 88).lampDesired = .steady ∧ (t.stallAt 0 88).display = some 42 ∧
    t.queue = [61] := by decide +kernel
theorem test_deliver :
    let t := after (.deliver (.office 1) 61 (some (1, 88))) (keyed .ready)
    (t.passAt 215).map (fun p => p.tab) = some 1300 ∧ t.orderAt 61 = none := by decide +kernel
theorem test_deliver_wrong_stall :
    answered (after (.deliver (.office 1) 61 (some (1, 89))) (keyed .ready)) =
      some (refuse .wrongStall) := by decide +kernel

/-- "aging through three periods": the expiry at 72,000. -/
def aging : State :=
  let s := ((State.reset.setOrder 404 (order .placed none 6 2950 0 71400 none)).setOrder 403
    (order .placed none 5 2960 0 71500 none)).setOrder 402 (order .placed none 3 2990 0 71700 none)
  let s := (s.setOrder 401 (order .placed none 2 3001 0 71900 none)).setOrder 405
    (order .placed none 1 3010 0 71990 none)
  opened 72000 { s with queue := [404, 403, 402, 401, 405], agingCount := 0 }

theorem test_aging :
    let t := after .agingExpiry aging
    t.queue.map (fun n => (n, levelIn t.orders n)) =
      [(404, 6), (403, 6), (402, 4), (401, 2), (405, 1)] ∧
    (t.orderAt 402).bind (fun o => o.lastRaise) = some 72000 := by decide +kernel

/-- "a rush breaks into a busy kitchen": NOTHING_ELIGIBLE at base floor 4, READY below the top, REMAKE. -/
def kitchen : State :=
  let s := (State.reset.setOrder 301 (order .placed none 2 2100 0 0 none)).setOrder 310
    (order .inPrep none 3 2110 0 0 (some 1))
  let s := s.setOrder 290 (order .ready none 5 2050 0 0 none)
  let s := (s.setStation 0 { StationCtx.fresh with stack := [310] }).setStation 1
    { StationCtx.fresh with baseFloor := 4 }
  { s.setOlp { s.olp with placeSeq := 2140 } with queue := [301] }

theorem test_take_floors :
    answered (after (.take (.office 1) 2) kitchen) = some (refuse .nothingEligible) ∧
    answered (after (.take (.office 1) 1) kitchen) = some (refuse .nothingEligible) := by
  decide +kernel
theorem test_remake :
    let t := after (.remake (.office 1) 290) kitchen
    t.queue = [290, 301] ∧ levelIn t.orders 290 = 7 ∧ t.olp.placeSeq = 2141 := by decide +kernel
theorem test_ready_not_top :
    answered (after (.ready (.office 1) 301) kitchen) = some (refuse .notTop) := by decide +kernel

/-- "a check-in with a lost acknowledgement": the report taken, then its repeat. -/
def posted (accepted : Bool) (st : StallRec) : State :=
  let s := (State.reset.setUnit 4 117
    { UnitRec.fresh with online := true, accepted := some accepted, carried := some 10 }).setPass 512
      (pass 2 none 0 3)
  let s := s.setStall 2 117 { st with online := true }
  s.setLoop 4 { s.loopAt 4 with begun := true, window := true, pos := some 117 }

theorem test_report_taken :
    let t := after (.loopReply 4 ⟨117, true, false, some ⟨false, 0, .keyTag 512⟩, .off, .down, none⟩)
      (posted true { StallRec.fresh with state := .arrived })
    (t.stallAt 2 117).tag = some 512 ∧
    (t.unitAt 4 117).ackOwed = some ⟨false, .taken⟩ := by decide +kernel
theorem test_report_repeated :
    let t := after (.loopReply 4 ⟨117, true, false, some ⟨false, 0, .keyTag 512⟩, .off, .down, none⟩)
      (posted false { bound 512 with display := some 10 })
    (t.stallAt 2 117).display = none ∧ (t.unitAt 4 117).ackOwed = some ⟨false, .taken⟩ := by
  decide +kernel

/-- R48: a frame of another address in the window is a missed reply, and the wait is over. -/
theorem test_wrong_frame_is_a_miss :
    let t := after (.loopReply 4 ⟨116, true, false, none, .off, .down, none⟩)
      (posted true StallRec.fresh)
    (t.unitAt 4 117).miss = 1 ∧ (t.loopAt 4).window = false := by decide +kernel

/-- R190, "central layouts": Read Clock at 72,030 s, worked out by hand: 01 19 5E, the check 121, then a
byte of 0. -/
theorem test_read_clock_bytes : (after (.readClock 7) (opened 72030 State.reset)).dataOut 9 =
    [0, 8, 0, 7, 1, 25, 94, 121, 0] := by decide +kernel

/-- R153, R190: a draft deadline that stands at zero expires before the next second is counted. -/
theorem test_tick_takes_what_is_due :
    let t := after .siteClockTick (opened 10 (keyed .draft))
    t.orderAt 61 = none ∧ (t.stallAt 0 88).display = some 24 ∧ t.olp.clock = 11 := by decide +kernel

/-- "closing the night": an empty part closes at once and raises SESSION_CLOSED with the site bit. -/
theorem test_close :
    let t := after (.closeSession 1) (opened 0 State.reset)
    t.olp.session = .closed ∧ (t.noticeOf .sessionClosed).mask = 1 := by decide +kernel

/-! ## Witnesses: for every statement with hypotheses, states and operands that meet them -/

/-! ### The part, its queue and its invariants -/

theorem witness_StepTakesTheFrontCommand : (opened 86399 State.reset).pending = [] := by decide +kernel

theorem witness_StepKeepsLotLimits :
    let s := { transfer with pending := [.siteClockTick] }
    LotLimits s ∧ (s.lotAt 4).inside = 199 ∧ ∃ t, step s = .next t :=
  ⟨by decide +kernel, by decide +kernel, _, rfl⟩

/-- An item at the highest price, and the timers at their bounds. -/
def atBounds : State :=
  { State.reset.setPriceRec 127 ⟨true, 9999, false⟩ with
    transitLimit := 3600, vacateGrace := 20, pending := [.agingExpiry] }

theorem witness_StepKeepsSettingsInRange : SettingsInRange atBounds ∧ ∃ t, step atBounds = .next t := by
  refine ⟨⟨by decide +kernel, by decide, by decide, by decide, by decide +kernel, fun i => ?_,
    by decide⟩, _, rfl⟩
  have h : atBounds.priceAt i = if (127 : Nat) = i then ⟨true, 9999, false⟩ else PriceRec.fresh := by
    show (Table.find [(127, (⟨true, 9999, false⟩ : PriceRec))] i).getD PriceRec.fresh = _
    simp only [Table.find]
    split <;> rfl
  rw [h]
  split <;> decide

theorem witness_StepKeepsLinesInShape :
    (let s := { State.reset.setLine 5 (busyLine 7) with pending := [.ack 5 255] }
     LinesInShape s ∧ ∃ t, step s = .next t) ∧
    (let s := { edited with pending := [.motorUp 1 .b] }
     OneOnScreen s ∧ (s.boothAt 1).projA.state = .onScreen ∧ ∃ t, step s = .next t) :=
  ⟨⟨by decide +kernel, _, rfl⟩, by decide +kernel, by decide +kernel, _, rfl⟩

theorem witness_StepKeepsLevelsLawful :
    let s := { (soundLot .projA).setProgramme 5 feature with pending := [.probe 2 ⟨0, 2048⟩] }
    LevelsLawful s ∧ ∃ t, step s = .next t := ⟨by decide +kernel, _, rfl⟩

theorem witness_StepKeepsRecordsInForm :
    let s := { keyed .draft with pending := [.keyCancel .post 1 88] }
    RecordsInForm s ∧ ∃ t, step s = .next t := ⟨by decide +kernel, _, rfl⟩

/-- One car parked at stall 1.88 whose order stands in the queue, and the station's TAKE of it. -/
def served : State := { keyed .placed with queue := [61], pending := [.take (.office 1) 1] }

theorem served_passAt (tag : Nat) :
    served.passAt tag = if 215 = tag then some (pass 0 (some 88) 600 2) else none := by
  have h : served.passes = [(215, pass 0 (some 88) 600 2)] := by decide +kernel
  by_cases c : 215 = tag
  · subst c
    decide +kernel
  · simp [State.passAt, h, Table.find, c]

theorem served_orderAt (n : Nat) : served.orderAt n =
    if 61 = n then some (order .placed (some 215) 2 1840 700 0 none) else none := by
  have h : served.orders = [(61, order .placed (some 215) 2 1840 700 0 none)] := by decide +kernel
  simp only [State.orderAt, h, Table.find]

theorem served_stallAt (l : Lot) (n : Nat) :
    served.stallAt l n = if l = 0 ∧ 88 = n then bound 215 else StallRec.fresh := by
  by_cases h : l = 0
  · subst h
    show (Table.find [(88, bound 215)] n).getD StallRec.fresh = _
    simp only [Table.find, true_and]
    split <;> rfl
  · have h' : bankGet served.stalls l = [] := by revert h; revert l; decide +kernel
    show (Table.find (bankGet served.stalls l) n).getD StallRec.fresh = _
    rw [h', if_neg fun x => h x.1]
    rfl

theorem served_BindingAgrees : BindingAgrees served := by
  refine ⟨fun l n => ?_, fun l n tag h => ?_, fun tag p h => ?_⟩
  · rw [served_stallAt]
    split <;> decide
  · rw [served_stallAt] at h
    split at h
    · rename_i c
      obtain rfl : 215 = tag := Option.some.inj h
      obtain ⟨rfl, rfl⟩ := c
      exact ⟨pass 0 (some 88) 600 2, rfl, rfl, rfl, rfl⟩
    · exact nomatch h
  · rw [served_passAt] at h
    split at h
    · rename_i c
      subst c
      obtain rfl := Option.some.inj h
      exact ⟨fun _ => ⟨88, rfl, rfl⟩, fun x => absurd rfl x⟩
    · exact nomatch h

theorem served_one {x : OrderState} (n : Nat) (hx : x ≠ .placed) :
    ¬∃ o, served.orderAt n = some o ∧ o.state = x := by
  rintro ⟨o, h, rfl⟩
  rw [served_orderAt] at h
  split at h
  · exact hx (by rw [← Option.some.inj h]; rfl)
  · exact nomatch h

theorem witness_StepKeepsRecordsInForm_agrees :
    OccupancyAgrees served ∧ KitchenAgrees served ∧ ∃ t, step served = .next t := by
  refine ⟨⟨by decide +kernel, by decide +kernel, by decide +kernel, by decide +kernel,
    by decide +kernel, served_BindingAgrees, by decide +kernel⟩, ⟨fun n => ?_, fun n => ?_,
    by decide +kernel, by decide +kernel, by decide +kernel, by decide +kernel, fun k n => ?_,
    by decide +kernel, fun n o h => ?_, fun l n d h => ?_⟩, _, rfl⟩
  · rw [served_orderAt]
    show n ∈ [61] ↔ _
    by_cases c : 61 = n
    · subst c
      exact ⟨fun _ => ⟨_, rfl, rfl⟩, fun _ => List.mem_singleton_self _⟩
    · rw [if_neg c]
      exact ⟨fun h => absurd (List.mem_singleton.mp h).symm c, fun ⟨_, h, _⟩ => nomatch h⟩
  · exact ⟨fun h => absurd h (List.not_mem_nil (a := n)),
      fun h => absurd h (served_one (x := .held) n (by decide))⟩
  · have e : (served.stationAt k).stack = [] := by revert k; decide +kernel
    rw [e]
    refine ⟨fun h => absurd h (List.not_mem_nil (a := n)), fun ⟨o, h, h'⟩ => ?_⟩
    rw [served_orderAt] at h
    split at h
    · rw [← Option.some.inj h] at h'
      exact nomatch h'
    · exact nomatch h
  · rw [served_orderAt] at h
    split at h
    · rw [← Option.some.inj h]
      decide
    · exact nomatch h
  · rw [served_stallAt] at h
    split at h <;> exact nomatch h

theorem witness_StepKeepsProgrammesWellFormed :
    let s := { edited with pending := [.deleteSegment 1 2 1] }
    ProgrammesWellFormed s ∧ ∃ t, step s = .next t := ⟨by decide +kernel, _, rfl⟩

/-! ### The office link and the session -/

theorem witness_OfficeFramesReadBack :
    WellFormed.instr (.setClock 255 16777215) = true ∧
    Decode.encodeFrame (.setClock 255 16777215) = some [0, 8, 5, 255, 255, 255, 255, 247] := by
  decide +kernel

theorem witness_OfficeTransferRunsItsRequest :
    Decode.decodeFrame [0, 5, 3, 0, 248] = .request (.closeSession 0) := by decide +kernel

theorem witness_OfficeTransferRefusesBadFrames :
    (¬((0 : Byte) = 0 ∧ (4 : Byte) = 0) ∧ Decode.num16 0 4 < 5) ∧
    (¬((32 : Byte) = 0 ∧ (0 : Byte) = 0) ∧ 8191 < Decode.num16 32 0) ∧
    (([3, 9, 0] : List Byte).length + 2 < Decode.num16 0 6) ∧
    (Decode.num16 0 5 = 5 ∧ Decode.byteSum ((0 :: 5 :: [6, 9, 0]).take (Decode.num16 0 5)) ≠ 0) ∧
    (7 < 256 ∧ ([] : List Byte).length ≤ 8186 ∧ 7 ≤ 7 ∧ 7 ≤ 15) ∧ (255 < 256 ∧ 105 ≤ 255) ∧
    (paramSize 6 [0] = some 0 ∧ ([0] : List Byte).length ≠ 0) ∧
    (paramSize 80 [0, 0, 0, 1, 2] = some 9 ∧ ([0, 0, 0, 1, 2] : List Byte).length ≠ 9) := by
  decide +kernel

theorem witness_ClockAndNoticesAnswerThroughTheSlot :
    let r : Response := ⟨true, 7, okWith (.word ⟨7, 8191⟩)⟩
    let s := State.reset.setOlp { State.reset.olp with slot := some r }
    State.reset.rdy = false ∧ s.olp.slot = some r ∧ s.dataOut 7 = responseFrame r ∧
    s.dataOut 9 = responseFrame r ++ [0, 0] ∧ (7 ≤ 7 ∧ 8191 ≤ 8191) ∧ 86399 ≤ 86399 := by
  decide +kernel

theorem witness_SecondTickLowersEveryCount :
    (let s := opened 86399 (State.reset.setChannel 5 { ChannelCtx.fresh with
        announcing := true, announceDeadline := some 600 })
     RecordsInForm s ∧ dueRows s = []) ∧
    (let s := opened 86399 (keyed .draft)
     dueRows s = [.draftExpiry 61] ∧ (runRows (dueRows s) s).map dueRows = some []) := by
  decide +kernel

theorem witness_SessionOpensAndCloses : State.reset.olp.session = .closed ∧
    (opened 0 State.reset).olp.session = .open ∧ (opened 0 State.reset).olp.session ≠ .closed ∧
    State.reset.olp.session ≠ .open ∧
    (let o := order .held (some 215) 2 1840 700 0 none
     let s := { ((keyed .held).setBooth 0 (booth .running (some 6) none ProjCtx.fresh
        ProjCtx.fresh)).setProgramme 0 feature with held := [61] }
     let s := s.setOlp { s.olp with session := .closed }
     ((after (.openSession 1) s).lotAt 0).window = .rush ∧ (s.lotAt 0).window ≠ .rush ∧
      61 ∈ s.held ∧ heldOfLot s 0 61 = true ∧ s.orderAt 61 = some o) := by decide +kernel

theorem witness_ForceCloseEmptiesEveryTable : (keyed .ready).olp.session ≠ .closed ∧
    (keyed .ready).orders ≠ [] ∧ State.reset.olp.session = .closed := by decide +kernel

/-! ### Requests that name a thing, and reads -/

theorem witness_LotsOutsideOneToSixAreRefused :
    ((0 : Nat) = 0 ∨ 384 < 0) ∧ 384 < 385 ∧ ((0 : Nat) = 0 ∨ 6 < 0) ∧ ((7 : Nat) = 0 ∨ 6 < 7) ∧ answered (after (.readLot 1 7) State.reset) =
      some (refuse .outOfRange) := by decide +kernel

/-- The first and the last stall of a lot. -/
theorem witness_stalls : (1 ≤ 1 ∧ 1 ≤ 384) ∧ (1 ≤ 384 ∧ 384 ≤ 384) ∧
    stallBehind 0 1 = some (0, 1) ∧ stallBehind 11 192 = some (5, 384) := by decide +kernel

theorem witness_RecordReadsAnswerTheRecord : (1 ≤ 384 ∧ 384 ≤ 384) ∧
    ((keyed .ready).stallAt 0 88).state = .occupied := by decide +kernel

theorem witness_SettingsAreClampedAndReported : 2 ≤ 2 ∧ (some 7 : Option Nat) = some 7 ∧
    (none : Option Nat) = none := by decide

theorem witness_OutOfServiceIsSetOnFreeStalls : (1 ≤ 1 ∧ 1 ≤ 384) ∧
    (State.reset.stallAt 5 384).state = .free := by decide +kernel

theorem witness_SensorReportsMoveTheStallByItsState : (1 ≤ 384 ∧ 384 ≤ 384) ∧
    ((keyed .ready).stallAt 0 88).state = .occupied := by decide +kernel

theorem witness_KeyTagRunsFiveTestsInOrder : (1 ≤ 1 ∧ 1 ≤ 384) ∧
    (transfer.passAt 77).isSome = true ∧ (transfer.stallAt 4 1).state = .free ∧
    (let s := transfer.setStall 2 12 { bound 77 with state := .vacated, grace := some 9 }
     (s.stallAt 2 12).state = .vacated ∧ (s.stallAt 2 12).tag = some 77 ∧
      s.passAt 77 = some (pass 2 (some 12) 1250 4) ∧ (pass 2 (some 12) 1250 4).state ≠ .inLane ∧
      (pass 2 (some 12) 1250 4).lot = 2) := by decide +kernel

/-! ### Check-in, timers and retirement -/

/-- Pass 77 in transit, of lot 3, with lot 5 at one car and four heads below its bounds. -/
def arriving : State :=
  (transfer.setPass 77 (pass 2 none 0 4)).setLot 4
    { roomFor 200 600 with inside := 199, heads := 596 }

theorem witness_CheckInBindsStallAndPass :
    ((arriving.stallAt 4 384).state = .free ∨ (arriving.stallAt 4 384).state = .arrived) ∧
    arriving.passAt 77 = some (pass 2 none 0 4) ∧ (pass 2 none 0 4).state = .inTransit ∧
    (pass 2 none 0 4).lot ≠ 4 ∧ (arriving.lotAt 4).inside < (arriving.lotAt 4).capacity ∧
    (arriving.lotAt 4).heads + (pass 2 none 0 4).party = (arriving.lotAt 4).headLimit ∧
    (arriving.stallAt 2 1).state = .free ∧ (pass 2 none 0 4).lot = 2 := by decide +kernel

theorem witness_MoveFreesTheOldStall :
    let p := pass 2 (some 12) 1250 4
    (transfer.stallAt 4 1).state = .free ∧ transfer.passAt 77 = some p ∧ p.state = .parked ∧
    p.stall = some 12 ∧ ¬(p.lot = 4 ∧ (12 : Nat) = 1) ∧
    (transfer.lotAt 4).inside < (transfer.lotAt 4).capacity ∧
    (transfer.lotAt 4).heads + p.party ≤ (transfer.lotAt 4).headLimit := by decide +kernel

theorem witness_TransitAndGraceDeadlinesExpire :
    (arriving.passAt 77 = some (pass 2 none 0 4) ∧ (pass 2 none 0 4).transit = some 0) ∧
    (State.reset.passAt 1 = none ∧ (State.reset.stallAt 5 384).grace ≠ some 0) ∧
    let s := transfer.setStall 2 12 { bound 77 with state := .vacated, grace := some 0 }
    (s.stallAt 2 12).state = .vacated ∧ (s.stallAt 2 12).grace = some 0 ∧
    (s.stallAt 2 12).tag = some 77 ∧ s.passAt 77 = some (pass 2 (some 12) 1250 4) := by
  decide +kernel

theorem witness_RetirePassReleasesEverythingOfTheCar :
    let s := keyed .draft
    let p := pass 0 (some 88) 600 2
    s.passAt 214 = none ∧ RecordsInForm s ∧ s.olp.session ≠ .closing ∧ s.passAt 215 = some p ∧
    OwnDraft 215 p s := by
  refine ⟨by decide +kernel, by decide +kernel, by decide +kernel, by decide +kernel,
    fun n d hn hd => ?_⟩
  obtain rfl : 88 = n := Option.some.inj hn
  have h : ((keyed .draft).stallAt 0 88).draft = some 61 := by decide +kernel
  obtain rfl : 61 = d := Option.some.inj (h.symm.trans hd)
  exact ⟨order .draft (some 215) 2 1840 700 0 none, by decide +kernel, by decide +kernel,
    by decide +kernel⟩

/-- In CLOSING, the last car with its draft only, and a car that leaves a READY order behind. -/
theorem witness_RetirePassReleasesEverythingOfTheCar_closing :
    let s := (keyed .draft).setOlp { (keyed .draft).olp with session := .closing }
    let u := (keyed .ready).setOlp { (keyed .ready).olp with session := .closing }
    (s.olp.session = .closing ∧ s.passAt 215 = some (pass 0 (some 88) 600 2) ∧
      (∀ kv ∈ s.passes, kv.1 = 215) ∧
      ∀ kv ∈ s.orders, kv.2.tag = some 215 ∧
        (kv.2.state = .draft ∨ kv.2.state = .held ∨ kv.2.state = .placed)) ∧
    (u.orderAt 61 = some (order .ready (some 215) 2 1840 700 0 none) ∧
      (u.stallAt 0 88).draft = none) := by decide +kernel

/-! ### The Lane Sequencer -/

/-- Reset with a lane in a state, holding a tag. -/
def laneIn (i : Lot) (x : LaneState) (tag : Option Nat) (s : State) : State :=
  s.setLane i { LaneCtx.fresh with state := x, tag := tag, order := .up }

theorem witness_ArriveAndLeftMoveTheLane : (State.reset.laneAt 5).state = .idle ∧
    ((laneIn 0 .occupied none State.reset).laneAt 0).state = .occupied ∧
    ((laneIn 5 .released (some 9999) State.reset).laneAt 5).state = .released := by decide +kernel

theorem witness_LaneChecksRunInOrder : ((3 : Lot).val < 4) ∧ (4 ≤ (4 : Lot).val) := by decide

theorem witness_AdmitCreatesThePass :
    let s := fullLot.setOlp { fullLot.olp with tagSeq := 9999 }
    ((0 : Lot).val < 4 ∧ (s.laneAt 0).state = .occupied ∧ s.olp.session = .open ∧
      feeClass? 3 = some .comp ∧ (s.lotAt 3).inside < (s.lotAt 3).capacity ∧
      (s.lotAt 3).heads + max 1 (min 5 8) = (s.lotAt 3).headLimit ∧ s.passes.length ≤ 2304 ∧
      1 ≤ s.olp.tagSeq ∧ s.olp.tagSeq ≤ 9999 ∧ nextTag s = 9999) ∧
    (let u := (s.setPass 9999 (pass 2 none 0 1)).setPass 1 (pass 2 none 0 1)
     u.passes.length ≤ 2304 ∧ nextTag u = 2) := by decide +kernel

/-- A pass at the barrier of a lane. -/
def atLane (i : Lot) : PassRec :=
  { pass 2 none 0 8 with state := .inLane, lane := some (lotNumber i), transit := none }

theorem witness_PassedAndBackoutEndTheAdmission :
    let s := opened 0 (laneIn 3 .admitted (some 1) (State.reset.setPass 1 (atLane 3)))
    ((3 : Lot).val < 4 ∧ s.olp.session = .open ∧ (s.laneAt 3).state = .admitted ∧
      (s.laneAt 3).tag = some 1 ∧ s.passAt 1 = some (atLane 3) ∧ (atLane 3).state = .inLane ∧
      (atLane 3).lane = some (lotNumber 3) ∧ RecordsInForm s) ∧
    (let u := (s.setOrder 61 (order .held (some 1) 0 1840 700 0 none)).setOlp { s.olp with
        session := .closing }
     u.olp.session = .closing ∧ u.passAt 1 = some (atLane 3) ∧
      (u.orderAt 61).map (fun o => o.tag) = some (some 1)) ∧
    (((s.dropPass 1).laneAt 3).tag = some 1 ∧ (s.dropPass 1).passAt 1 = none) ∧
    (s.laneAt 0).state ≠ .admitted := by decide +kernel

theorem witness_ExitsReleaseTheLane :
    let s := laneIn 4 .occupied none (State.reset.setPass 9999 (pass 0 none 0 1))
    (4 ≤ (4 : Lot).val ∧ s.olp.session ≠ .closing ∧ (s.laneAt 4).state = .occupied ∧
      s.passAt 9999 = some (pass 0 none 0 1) ∧ (pass 0 none 0 1).state ≠ .inLane ∧
      (pass 0 none 0 1).tab = 0 ∧ RecordsInForm s ∧ carStall (pass 0 none 0 1) = none) ∧
    ((4 : Nat) < 5 ∧ 6 < 7) ∧ ((0 : Nat) = 0 ∧ 4 < 5) := by decide +kernel

/-- The exit of a PARKED car with a READY order, in OPEN and in CLOSING. -/
theorem witness_ExitsReleaseTheLane_parked :
    let s := laneIn 4 .occupied none ((keyed .ready).setLot 0 { LotRec.fresh with policy := .open })
    ((s.laneAt 4).state = .occupied ∧ s.passAt 215 = some (pass 0 (some 88) 600 2) ∧
      (pass 0 (some 88) 600 2).state = .parked ∧ (s.lotAt 0).policy = .open ∧
      s.olp.session ≠ .closing ∧ RecordsInForm s ∧ (s.stallAt 0 88).draft = none ∧
      s.orderAt 61 = some (order .ready (some 215) 2 1840 700 0 none)) ∧
    (s.setOlp { s.olp with session := .closing }).olp.session = .closing := by decide +kernel

/-! ### The Loop Master -/

theorem witness_SetFittedResetsTheUnit :
    (1 ≤ 192 ∧ 192 ≤ maxAddress 11 ∧ 11 ≤ maxAddress 12 ∧ (State.reset.unitAt 11 192).fitted = true) ∧
    ((State.reset.setUnit 12 11 { UnitRec.fresh with fitted := false }).unitAt 12 11).fitted = false ∧
    (12 < 13) ∧ (11 < 12 ∧ 192 < 193) ∧ (12 = 12 ∧ 11 < 12) := by decide +kernel

/-- Loop 0 between replies, its sweep at an address, with a general call waiting. -/
def sweeping (pos : Option Nat) (count : Nat) (window : Bool) (s : State) : State :=
  s.setLoop 0 { s.loopAt 0 with
    begun := true, pos := pos, count := count, window := window, callSlot := some 31 }

theorem witness_SweepsPollTheDueUnits :
    (let s := sweeping (some 192) 7 false State.reset
     (s.loopAt 0).window = false ∧ (s.loopAt 0).begun = true) ∧
    ((State.reset.loopAt 12).window = false ∧ (State.reset.loopAt 12).begun = false ∧
      (State.reset.loopAt 12).callSlot = none ∧ (State.reset.loopAt 12).pos.getD 0 < 1 ∧
      1 ≤ maxAddress 12 ∧ (State.reset.unitAt 12 1).fitted = true ∧
      (State.reset.loopAt 12).count = 0) ∧
    (let s := sweeping none 0 false State.reset
     (s.loopAt 0).window = false ∧ (s.loopAt 0).begun = true ∧ (s.loopAt 0).pos.getD 0 < 1 ∧
      1 ≤ maxAddress 0 ∧ (s.unitAt 0 1).fitted = true ∧ (s.loopAt 0).count = 0) ∧
    ((sweeping none 0 true State.reset).loopAt 0).window = true := by decide +kernel

/-- Nothing is left of a sweep behind its last address. -/
theorem witness_SweepsPollTheDueUnits_done (s : State) :
    ∀ b, (some 192 : Option Nat).getD 0 < b → b ≤ maxAddress 0 → (s.unitAt 0 b).fitted = false := by
  intro b h1 h2
  simp only [Option.getD_some] at h1
  have h3 : maxAddress 0 = 192 := rfl
  omega

/-- Nothing stands between the sweep's start and address 1. -/
theorem witness_SweepsPollTheDueUnits_none_between (s : State) :
    ∀ b, (none : Option Nat).getD 0 < b → b < 1 → (s.unitAt 0 b).fitted = false := by
  intro b h1 h2
  simp only [Option.getD_none] at h1
  omega

/-- Post 192 of loop 11, stall 6.384, awaited, with an accepted toggle. -/
def awaited (online : Bool) (miss : Nat) (accepted : Option Bool) : State :=
  let s := State.reset.setUnit 11 192
    { UnitRec.fresh with online := online, miss := miss, accepted := accepted, carried := some 99 }
  let s := s.setStall 5 384 { StallRec.fresh with online := online, display := some 99 }
  s.setLoop 11 { s.loopAt 11 with begun := true, window := true, pos := some 192 }

/-- A reply of post 192, idle or with a report. -/
def replyOf (rep : Option ReplyReport) : LoopReply :=
  { address := 192, checkRight := true, restart := false, report := rep, lamp := .flash, arm := .down,
    held := none }

theorem witness_RepliesAreTakenOnce :
    let s := awaited true 2 (some true)
    let idle := replyOf none
    let rep : ReplyReport := ⟨true, 0, .keyTag 1⟩
    let new : ReplyReport := ⟨false, 0, .sensorPresent⟩
    (isReply (s.loopAt 11) idle = true ∧ idle.address = 192 ∧ idle.restart = false ∧
      (s.unitAt 11 192).fitted = true ∧ (s.unitAt 11 192).online = true ∧
      stallBehind 11 192 = some (5, 384) ∧ idle.report = none) ∧
    (isReply (s.loopAt 11) (replyOf (some rep)) = true ∧
      (s.unitAt 11 192).accepted = some rep.toggle) ∧
    (isReply (s.loopAt 11) (replyOf (some new)) = true ∧
      (s.unitAt 11 192).accepted ≠ some new.toggle ∧ 1 ≤ 384 ∧ 384 ≤ 384 ∧
      postCommand 5 384 new.body = some (.sensorPresent .post 6 384) ∧
      postCommand 5 384 .take = none) ∧
    (Table.wf UnitRec.fresh (s.loopAt 11).units = true ∧
      isReply (s.loopAt 11) { idle with restart := true } = true ∧
      { idle with restart := true }.restart = true) ∧
    ((State.reset.loopAt 11).window = false ∧ (s.loopAt 11).window = true ∧
      { idle with checkRight := false }.checkRight = false ∧
      (s.loopAt 11).pos ≠ some 191) := by decide +kernel

/-- The terminal of lane 6 awaited, with a response still waiting or none. -/
def terminal (p : Option PendingResponse) : State :=
  let s := State.reset.setUnit 12 6
    { UnitRec.fresh with online := true, accepted := some true, pending := p }
  s.setLoop 12 { s.loopAt 12 with begun := true, window := true, pos := some 6 }

theorem witness_ServiceRequestsUseTheResponseSlot :
    let w : PendingResponse := ⟨true, none, okWith .none⟩
    let rep : ReplyReport := ⟨false, 0, .unknown 200⟩
    let r : LoopReply := { replyOf (some rep) with address := 6, held := some false }
    (isReply ((terminal (some w)).loopAt 12) r = true ∧ r.address = lotNumber 5 ∧
      r.restart = false ∧ ((terminal (some w)).unitAt 12 6).fitted = true ∧
      ((terminal (some w)).unitAt 12 6).online = true ∧
      ((terminal (some w)).unitAt 12 6).accepted ≠ some rep.toggle ∧
      ((terminal (some w)).unitAt 12 6).pending = some w ∧ r.held ≠ some w.toggle) ∧
    ((terminal none).unitAt 12 6).pending = none ∧
    (isReply ((terminal (some w)).loopAt 12) { r with held := some true } = true ∧
      { r with held := some true }.held = some w.toggle) ∧
    ((terminal none).laneAt 5).state = .idle := by decide +kernel

/-- Unit `a` of the service loop awaited, with the toggle 1 accepted. -/
def serving (a : Nat) (p : Option PendingResponse) : State :=
  let s := State.reset.setUnit 12 a
    { UnitRec.fresh with online := true, accepted := some true, pending := p }
  s.setLoop 12 { s.loopAt 12 with begun := true, window := true, pos := some a }

/-- A repeat, a request while a response waits, one of the unit's class and one outside it. -/
theorem witness_ServiceRequestsUseTheResponseSlot_all :
    let w : PendingResponse := ⟨true, none, okWith .none⟩
    let r (a : Nat) (t : Bool) (b : Report) : LoopReply :=
      { replyOf (some ⟨t, 16, b⟩) with address := a }
    let u (a : Nat) (p : Option PendingResponse) :=
      (after (.loopReply 12 { replyOf none with address := a }) (serving a p)).unitAt 12 a
    (isReply ((serving 1 none).loopAt 12) (r 1 false .arrive) = true ∧
      ((serving 1 none).unitAt 12 1).fitted = true) ∧ (u 1 none).accepted = some true ∧
    ((u 7 (some w)).accepted ≠ some false ∧ (u 7 (some w)).pending ≠ none) ∧
    ((u 11 none).accepted ≠ some false ∧ (u 11 none).pending = none ∧
      serviceCommand 11 ⟨false, 16, .pay 1 5⟩ = some (.pay (.handheld 16 false) 1 5)) ∧
    serviceCommand 10 ⟨false, 0, .take⟩ = some (.take (.station 4 false) 4) ∧
    serviceCommand 11 ⟨false, 16, .take⟩ = none := by decide +kernel

theorem witness_MissesAndRepliesMoveTheLink :
    ((awaited true 1 none).loopAt 11).window = true ∧
    ((awaited true 1 none).loopAt 11).pos = some 192 ∧
    ((awaited true 1 none).unitAt 11 192).miss < 2 ∧
    ((awaited true 2 none).unitAt 11 192).miss = 2 ∧
    ((awaited true 2 none).unitAt 11 192).online = true ∧
    stallBehind 11 192 = some (5, 384) ∧
    isReply ((awaited false 3 none).loopAt 11) (replyOf none) = true ∧
    ((awaited false 3 none).loopAt 11).window = true ∧
    ((awaited false 3 none).loopAt 11).pos = some 192 ∧
    ((awaited false 3 none).unitAt 11 192).fitted = true ∧
    ((awaited false 3 none).unitAt 11 192).online = false ∧
    (let s := (serving 10 none).setUnit 12 10 { (serving 10 none).unitAt 12 10 with miss := 2 }
     (s.loopAt 12).window = true ∧ (s.loopAt 12).pos = some 10 ∧ (s.unitAt 12 10).fitted = true ∧
      (s.unitAt 12 10).online = true ∧ (s.unitAt 12 10).miss = 2 ∧
      isReply (s.loopAt 12) { replyOf none with address := 10 } = true) := by decide +kernel

/-! ### The Programme Store -/

theorem witness_EntriesArePreparedByKind : (1 ≤ 999 ∧ 999 ≤ 999 ∧ 7 ≤ 7 ∧ 2048 ≤ 8191 ∧ 8191 ≤ 8191) ∧
    3 < 4 ∧ (1 ≤ 1 ∧ 999 < 1000) ∧ (none : Option Nat) = none := by decide

/-- A word that normalisation loses, and an edit of that entry which every check lets pass. -/
theorem witness_EntriesArePreparedByKind_lost :
    (0 ≤ 7 ∧ 0 < levelValue ⟨0, 2047⟩ ∧ levelValue ⟨0, 2047⟩ < 2048) ∧
    editVerdict (edited.programmeAt 1) (edited.boothAt 1) 7
      (some ((edited.programmeAt 1).set (7 - 1) (.reel 999 ⟨0, 0⟩))) = .ok := by decide +kernel

theorem witness_LoadStoresAWellFormedList :
    (((edited.boothAt 1).state ≠ .dark ∧ (edited.boothAt 1).state ≠ .ended)) ∧
    ((State.reset.setBooth 0 (booth .ended none none ⟨.threaded, some 1⟩ ProjCtx.fresh)).boothAt
      0).projA.state = .threaded ∧
    ((State.reset.boothAt 5).state = .dark ∧ (State.reset.boothAt 5).current = none ∧
      (State.reset.lineAt 5).downReport = none) ∧
    (prepareEntries [⟨1, some 1, some ⟨0, 2048⟩, none⟩, ⟨3, none, none, none⟩] =
      some (([.snipe 1 ⟨0, 2048⟩, .finish] : List Segment).map fun e => (e, false)) ∧
      wellFormedProgramme [.snipe 1 ⟨0, 2048⟩, .finish] = true) ∧
    (prepareEntries [⟨1, some 1, some ⟨0, 1⟩, none⟩, ⟨3, none, none, none⟩] =
      some [(.snipe 1 ⟨0, 0⟩, true), (.finish, false)] ∧
      wellFormedProgramme [.snipe 1 ⟨0, 0⟩, .finish] = true) ∧
    (let s := show' 5 (booth .ended (some 10) none ⟨.spent, some 9⟩ ⟨.tailing, some 8⟩) feature
      (busyLine 6)
     (s.boothAt 5).state = .ended ∧ (s.boothAt 5).current = some 10 ∧ LineTakes 1 (s.lineAt 5) ∧
      holdsEntry (s.boothAt 5).projA = false ∧ holdsEntry (s.boothAt 5).projB = false) ∧
    ((prepareEntries [⟨3, none, none, none⟩]).map (fun xs => wellFormedProgramme (xs.map Prod.fst)) =
      some false) := by decide +kernel

theorem witness_LoadStoresAWellFormedList_held :
    ∀ p, holdsEntry (projOf (State.reset.boothAt 5) p) = false := by
  intro p
  cases p <;> decide +kernel

theorem witness_EditsKeepPositionsOnTheirEntries :
    editVerdict (edited.programmeAt 1) (edited.boothAt 1) 1
      (some ((edited.programmeAt 1).eraseIdx 0)) = .ok ∧
    editVerdict (edited.programmeAt 1) (edited.boothAt 1) 10
      (some ((edited.programmeAt 1).eraseIdx 9)) = .outOfRange ∧
    prepareEntry ⟨2, none, none, some 1801⟩ = some (.intermission 1800, false) ∧
    editVerdict (edited.programmeAt 1) (edited.boothAt 1) 6
      ((prepareEntry ⟨2, none, none, some 1801⟩).map fun x => (edited.programmeAt 1).set 5 x.1) = .ok ∧
    editVerdict (edited.programmeAt 1) (edited.boothAt 1) 5
      ((prepareEntry ⟨0, some 999, some ⟨7, 8191⟩, none⟩).map fun x =>
        (edited.programmeAt 1).take 4 ++ x.1 :: (edited.programmeAt 1).drop 4) = .ok := by
  decide +kernel

theorem witness_EditsKeepPositionsOnTheirEntries_lossless :
    ∀ e, prepareEntry ⟨2, none, none, some 1801⟩ ≠ some (e, true) := by
  intro e h
  have h' : prepareEntry ⟨2, none, none, some 1801⟩ = some (.intermission 1800, false) := by
    decide +kernel
  rw [h'] at h
  simp at h

/-! ### The Booth Sequencer -/

/-- Booth 6 with the double feature, an UP line and room for `k` commands. -/
def roomy (k : Nat) (b : BoothCtx) : State := show' 5 b feature (busyLine (7 - k))

theorem witness_StartShowAndResumeStartAMotor :
    (let s := roomy 1 (booth .ready none none ⟨.threaded, some 1⟩ ProjCtx.fresh)
     (s.boothAt 5).state = .ready ∧ threadedWith (s.boothAt 5) 1 = some .a ∧
      LineRoom 1 (s.lineAt 5)) ∧
    (State.reset.boothAt 5).state ≠ .ready ∧ ((0 : Nat) = 0 ∧ 24 < 25) ∧
    (1 ≤ 24 ∧ 24 ≤ 24 ∧ (State.reset.boothAt 5).state ≠ .halted) ∧
    (let s := roomy 2 (booth .halted (some 3) none ⟨.spent, some 3⟩ ⟨.threaded, some 24⟩)
     (s.boothAt 5).state = .halted ∧ (s.boothAt 5).current = some 3 ∧
      threadedWith (s.boothAt 5) 24 = some .b ∧ LineRoom 2 (s.lineAt 5)) ∧
    (let s := roomy 1 (booth .halted none none ⟨.threaded, some 1⟩ ProjCtx.fresh)
     (s.boothAt 5).state = .halted ∧ (s.boothAt 5).current = none ∧
      threadedWith (s.boothAt 5) 1 = some .a ∧ LineRoom 1 (s.lineAt 5)) := by decide +kernel

theorem witness_HaltAndClearStopTheMachines :
    let s := roomy 4 (booth .changeoverPending (some 3) (some (.reel 103 ⟨6, 7372⟩)) ⟨.onScreen, some 3⟩
      ⟨.tailing, some 4⟩)
    let cmds := haltStops (s.boothAt 5) ++ sourceSwitch 5 .fill s
    let clear := clearStops (s.boothAt 5) ++ sourceSwitch 5 .silent s
    ((s.boothAt 5).state = .changeoverPending ∧ LineTakes cmds.length (s.lineAt 5) ∧
      cmds = [.dowser .a false, .motor .a false, .motor .b false, .source .fill]) ∧
    (LineTakes clear.length (s.lineAt 5) ∧
      clear = [.dowser .a false, .motor .a false, .motor .b false]) ∧
    ((State.reset.boothAt 5).state ≠ .running ∧ (State.reset.boothAt 5).state ≠ .changeoverPending ∧
      (State.reset.boothAt 5).state ≠ .intermission ∧
      (State.reset.boothAt 5).state ≠ .lateStart) := by decide +kernel

/-- A halt between two reels, an outgoing one that tails and an incoming one that starts, and a DARK booth
on a DOWN line. -/
theorem witness_HaltAndClearStopTheMachines_offScreen :
    (∀ x ∈ [BoothState.intermission, .lateStart],
      let s := roomy 3 (booth x (some 6) (some (.reel 201 ⟨6, 7372⟩)) ⟨.starting, some 7⟩
        ⟨.tailing, some 5⟩)
      let cmds := haltStops (s.boothAt 5) ++ sourceSwitch 5 .fill s
      (s.boothAt 5).state = x ∧ LineTakes cmds.length (s.lineAt 5) ∧
        cmds = [.motor .b false, .motor .a false, .source .fill]) ∧
    (LineTakes (clearStops (State.reset.boothAt 5) ++ sourceSwitch 5 .silent State.reset).length
        (State.reset.lineAt 5) ∧ (State.reset.lineAt 5).up = false ∧
      (State.reset.boothAt 5).state = .dark ∧ (State.reset.boothAt 5).current = none) := by
  decide +kernel

theorem witness_ThreadedIsCheckedAgainstTheProgramme :
    let s := roomy 1 (booth .running (some 3) none ⟨.onScreen, some 3⟩ ⟨.empty, none⟩)
    let u := roomy 1 (booth .running (some 3) (some (.reel 103 ⟨6, 7372⟩)) ⟨.onScreen, some 3⟩
      ⟨.empty, none⟩)
    ((s.lineAt 5).up = true ∧ (s.lineAt 5).downReport = none ∧
      (projOf (s.boothAt 5) .a).state ≠ .empty ∧ (projOf (s.boothAt 5) .b).state = .empty ∧
      wantedPos (s.programmeAt 5) (s.boothAt 5) .b = some 4 ∧
      (entryAt (s.programmeAt 5) 4).bind entryLabel = some 103 ∧ (s.boothAt 5).latched = none) ∧
    (LineRoom 1 (u.lineAt 5) ∧ (u.boothAt 5).state = .running ∧ (u.boothAt 5).current = some 3 ∧
      (u.boothAt 5).latched = some (.reel 103 ⟨6, 7372⟩) ∧
      isReelEntry (.reel 103 ⟨6, 7372⟩) = true ∧
      wantedPos (u.programmeAt 5) (u.boothAt 5) .b = some (3 + 1)) ∧
    (State.reset.boothAt 5).state = .dark ∧
    (isReelEntry (.snipe 1 ⟨0, 2048⟩) = true ∧
      heldPos (projOf (booth .ready none none ProjCtx.fresh ProjCtx.fresh) .b) ≠ some 1) ∧
    ((0 : Nat) = 0 ∧ 999 < 1000) := by decide +kernel

/-- A reel threaded after the latch of an intermission, its pre-roll past, and of a late start. -/
theorem witness_ThreadedIsCheckedAgainstTheProgramme_late :
    ∀ x ∈ [BoothState.intermission, .lateStart],
      let s := roomy 1 (booth x (some 6) (some (.reel 201 ⟨6, 7372⟩)) ⟨.spent, some 5⟩ ⟨.empty, none⟩)
      LineRoom 1 (s.lineAt 5) ∧ (s.boothAt 5).state = x ∧
        (projOf (s.boothAt 5) .b).state = .empty ∧ (s.boothAt 5).current = some 6 ∧
        (s.boothAt 5).latched = some (.reel 201 ⟨6, 7372⟩) ∧
        wantedPos (s.programmeAt 5) (s.boothAt 5) .b = some (6 + 1) ∧
        (entryAt (s.programmeAt 5) (6 + 1)).bind entryLabel = some 201 := by decide +kernel

theorem witness_ThreadedIsCheckedAgainstTheProgramme_wrong :
    let s := roomy 1 (booth .running (some 3) none ⟨.onScreen, some 3⟩ ⟨.empty, none⟩)
    ∀ w, wantedPos (s.programmeAt 5) (s.boothAt 5) .b = some w →
      (entryAt (s.programmeAt 5) w).bind entryLabel ≠ some 999 := by
  intro s w h
  have h' : wantedPos (s.programmeAt 5) (s.boothAt 5) .b = some 4 := by decide +kernel
  obtain rfl : 4 = w := Option.some.inj (h'.symm.trans h)
  decide +kernel

theorem witness_UnloadedEmptiesAStoppedProjector :
    (edited.lineAt 1).up = true ∧ (edited.lineAt 1).downReport = none := by decide +kernel

theorem witness_ChangeoverRunsOnTime :
    (let s := roomy 1 (booth .running (some 3) none ⟨.onScreen, some 3⟩ ⟨.threaded, some 4⟩)
     LineRoom 1 (s.lineAt 5) ∧ (s.boothAt 5).state = .running ∧
      (projOf (s.boothAt 5) .a).state = .onScreen ∧ (s.boothAt 5).latched = none ∧
      (s.boothAt 5).current = some 3 ∧
      entryAt (s.programmeAt 5) (3 + 1) = some (.reel 103 ⟨6, 7372⟩) ∧
      isReelEntry (.reel 103 ⟨6, 7372⟩) = true ∧
      projOf (s.boothAt 5) (otherProj .a) = ⟨.threaded, some (3 + 1)⟩) ∧
    (let s := edited
     (s.lineAt 1).up = true ∧ (s.lineAt 1).downReport = none ∧
      (s.boothAt 1).state = .changeoverPending ∧ (s.boothAt 1).late = false ∧
      (s.boothAt 1).gap = false ∧ (projOf (s.boothAt 1) .b).state = .starting) ∧
    (let s := roomy 3 (booth .changeoverPending (some 3) (some (.reel 103 ⟨6, 7372⟩))
      ⟨.onScreen, some 3⟩ ⟨.atSpeed, some 4⟩)
     LineRoom 3 (s.lineAt 5) ∧ (s.boothAt 5).state = .changeoverPending ∧
      (s.boothAt 5).late = false ∧ (projOf (s.boothAt 5) .a).state = .onScreen ∧
      (s.boothAt 5).current = some 3 ∧ (s.boothAt 5).latched = some (.reel 103 ⟨6, 7372⟩) ∧
      projOf (s.boothAt 5) (otherProj .a) = ⟨.atSpeed, some (3 + 1)⟩) ∧
    ((edited.lineAt 1).up = true ∧ (projOf (edited.boothAt 1) .b).state ≠ .onScreen) ∧
    (let s := roomy 1 (booth .running (some 3) none ⟨.onScreen, some 3⟩ ⟨.spent, some 2⟩)
     (s.lineAt 5).up = true ∧ (projOf (s.boothAt 5) .a).state = .onScreen ∧
      (s.boothAt 5).latched = none ∧ (s.boothAt 5).current = some 3 ∧
      entryAt (s.programmeAt 5) (3 + 1) = some (.reel 103 ⟨6, 7372⟩) ∧
      (projOf (s.boothAt 5) (otherProj .a)).state ≠ .threaded) ∧
    ((roomy 1 (booth .intermission (some 6) none ⟨.starting, some 7⟩ ProjCtx.fresh)).boothAt
      5).state = .intermission := by decide +kernel

theorem witness_LateChangeoverRaisesItsNotices :
    (let s := edited
     (s.lineAt 1).up = true ∧ (s.lineAt 1).downReport = none ∧ (s.boothAt 1).late = false ∧
      (projOf (s.boothAt 1) .a).state = .onScreen ∧ (s.boothAt 1).current = some 3 ∧
      (s.boothAt 1).latched = some (.reel 103 ⟨6, 7372⟩) ∧
      projOf (s.boothAt 1) (otherProj .a) = ⟨.starting, some (3 + 1)⟩) ∧
    (let s := roomy 3 { booth .changeoverPending (some 3) (some (.reel 103 ⟨6, 7372⟩))
      ⟨.onScreen, some 3⟩ ⟨.starting, some 4⟩ with late := true }
     LineRoom 3 (s.lineAt 5) ∧ (s.boothAt 5).state = .changeoverPending ∧
      (projOf (s.boothAt 5) .a).state = .onScreen ∧ (s.boothAt 5).current = some 3 ∧
      projOf (s.boothAt 5) (otherProj .a) = ⟨.starting, some (3 + 1)⟩) ∧
    (let s := roomy 2 { booth .changeoverPending (some 3) (some (.reel 103 ⟨6, 7372⟩))
      ⟨.spent, some 3⟩ ⟨.starting, some 4⟩ with late := true, gap := true }
     LineRoom 2 (s.lineAt 5) ∧ (s.boothAt 5).state = .changeoverPending ∧
      (s.boothAt 5).gap = true ∧ (s.boothAt 5).current = some 3 ∧
      (s.boothAt 5).latched = some (.reel 103 ⟨6, 7372⟩) ∧
      projOf (s.boothAt 5) .b = ⟨.starting, some (3 + 1)⟩) ∧
    (let s := roomy 2 { booth .starting none none ⟨.empty, none⟩ ⟨.starting, some 2⟩ with
      start := some 2 }
     LineRoom 2 (s.lineAt 5) ∧ (s.boothAt 5).state = .starting ∧ (s.boothAt 5).start = some 2 ∧
      entryAt (s.programmeAt 5) 2 = some (.reel 101 ⟨6, 7372⟩) ∧
      projOf (s.boothAt 5) .b = ⟨.starting, some 2⟩) := by decide +kernel

/-- A late CUE_CHANGE with no projector started, and the MOTOR_UP of a late changeover without a gap. -/
theorem witness_LateChangeoverRaisesItsNotices_late :
    (let s := roomy 3 (booth .running (some 3) (some (.reel 103 ⟨6, 7372⟩)) ⟨.onScreen, some 3⟩
      ⟨.threaded, some 7⟩)
     (s.lineAt 5).up = true ∧ (s.lineAt 5).downReport = none ∧ (s.boothAt 5).late = false ∧
      (projOf (s.boothAt 5) .a).state = .onScreen ∧ (s.boothAt 5).current = some 3 ∧
      (s.boothAt 5).latched = some (.reel 103 ⟨6, 7372⟩) ∧
      (projOf (s.boothAt 5) (otherProj .a)).pos ≠ some (3 + 1)) ∧
    (let s := roomy 3 { booth .changeoverPending (some 3) (some (.reel 103 ⟨6, 7372⟩))
      ⟨.onScreen, some 3⟩ ⟨.starting, some 4⟩ with late := true }
     LineRoom 3 (s.lineAt 5) ∧ (s.boothAt 5).state = .changeoverPending ∧
      (s.boothAt 5).late = true ∧ (s.boothAt 5).gap = false ∧ (s.boothAt 5).current = some 3 ∧
      (s.boothAt 5).latched = some (.reel 103 ⟨6, 7372⟩) ∧
      projOf (s.boothAt 5) .b = ⟨.starting, some (3 + 1)⟩) := by decide +kernel

/-- Nothing latched, and an entry of either kind with its level word. -/
theorem witness_LateChangeoverRaisesItsNotices_clear :
    (let s := roomy 5 (booth .running (some 4) none ⟨.onScreen, some 4⟩ ⟨.threaded, some 5⟩)
     LineRoom 5 (s.lineAt 5) ∧ (projOf (s.boothAt 5) .a).state = .onScreen ∧
      (s.boothAt 5).latched = none ∧ (s.boothAt 5).late = false) ∧
    entryLevel (.snipe 501 ⟨6, 6144⟩) = some ⟨6, 6144⟩ ∧
    entryLevel (.reel 103 ⟨6, 7372⟩) = some ⟨6, 7372⟩ ∧
    isReelEntry (.snipe 501 ⟨6, 6144⟩) = true ∧ isReelEntry (.reel 103 ⟨6, 7372⟩) = true := by
  decide +kernel

/-- A line that is UP and idle has room for seven commands. -/
theorem witness_LineRoom_idle : LineRoom 7 { LineCtx.fresh with up := true } := by decide +kernel

theorem witness_RunoutAndBreakEndTheReel :
    (let s := roomy 3 (booth .running (some 9) (some .finish) ⟨.onScreen, some 9⟩ ⟨.threaded, some 7⟩)
     LineRoom 3 (s.lineAt 5) ∧ (s.boothAt 5).state = .running ∧
      (projOf (s.boothAt 5) .a).state = .onScreen ∧ (s.boothAt 5).current = some 9 ∧
      (s.boothAt 5).latched = some .finish ∧
      (projOf (s.boothAt 5) (otherProj .a)).state = .threaded) ∧
    (let s := roomy 1 (booth .running (some 4) none ⟨.tailing, some 3⟩ ⟨.onScreen, some 4⟩)
     LineRoom 1 (s.lineAt 5) ∧ (projOf (s.boothAt 5) .a).state = .tailing) ∧
    (let s := roomy 1 (booth .running (some 4) none ⟨.spent, some 3⟩ ⟨.onScreen, some 4⟩)
     (s.lineAt 5).up = true ∧ (s.lineAt 5).downReport = none ∧
      (projOf (s.boothAt 5) .a).state = .spent) := by decide +kernel

/-- RUNOUT with an INTERMISSION, with the next reel at speed and with none started. -/
theorem witness_RunoutAndBreakEndTheReel_runout :
    (let s := roomy 3 (booth .running (some 5) (some (.intermission 600)) ⟨.onScreen, some 5⟩
      ⟨.threaded, some 7⟩)
     LineRoom 3 (s.lineAt 5) ∧ (projOf (s.boothAt 5) .a).state = .onScreen ∧
      (s.boothAt 5).current = some 5 ∧ (s.boothAt 5).state ≠ .intermission ∧
      (s.boothAt 5).latched = some (.intermission 600)) ∧
    (let s := roomy 4 (booth .changeoverPending (some 3) (some (.reel 103 ⟨6, 7372⟩))
      ⟨.onScreen, some 3⟩ ⟨.atSpeed, some 4⟩)
     LineRoom 4 (s.lineAt 5) ∧ (projOf (s.boothAt 5) .a).state = .onScreen ∧
      (s.boothAt 5).current = some 3 ∧ (s.boothAt 5).latched = some (.reel 103 ⟨6, 7372⟩) ∧
      projOf (s.boothAt 5) (otherProj .a) = ⟨.atSpeed, some (3 + 1)⟩) ∧
    (let s := roomy 3 (booth .running (some 3) (some (.reel 103 ⟨6, 7372⟩)) ⟨.onScreen, some 3⟩
      ⟨.spent, some 2⟩)
     LineRoom 3 (s.lineAt 5) ∧ (s.boothAt 5).state = .running ∧
      (projOf (s.boothAt 5) .a).state = .onScreen ∧ (s.boothAt 5).current = some 3 ∧
      (s.boothAt 5).latched = some (.reel 103 ⟨6, 7372⟩) ∧
      stands (projOf (s.boothAt 5) (otherProj .a))) := by decide +kernel

/-- BREAK of an incoming reel: in STARTING, before a changeover, in LATE_START, and at speed in a gap. -/
theorem witness_RunoutAndBreakEndTheReel_break :
    (let s := roomy 2 (booth .starting none none ⟨.starting, some 1⟩ ProjCtx.fresh)
     LineRoom 2 (s.lineAt 5) ∧ (projOf (s.boothAt 5) .a).state = .starting ∧
      stands (projOf (s.boothAt 5) (otherProj .a)) ∧ (s.boothAt 5).state = .starting) ∧
    (let s := roomy 1 (booth .changeoverPending (some 3) (some (.reel 103 ⟨6, 7372⟩))
      ⟨.onScreen, some 3⟩ ⟨.starting, some 4⟩)
     LineRoom 1 (s.lineAt 5) ∧ (projOf (s.boothAt 5) .b).state = .starting ∧
      (s.boothAt 5).state = .changeoverPending ∧ (s.boothAt 5).gap = false) ∧
    ((booth .lateStart (some 6) none ⟨.starting, some 7⟩ ProjCtx.fresh).state = .lateStart) ∧
    (let s := roomy 1 { booth .changeoverPending (some 3) (some (.reel 103 ⟨6, 7372⟩))
      ⟨.spent, some 3⟩ ⟨.atSpeed, some 4⟩ with late := true, gap := true }
     (s.lineAt 5).up = true ∧ (s.lineAt 5).downReport = none ∧
      (projOf (s.boothAt 5) .b).state = .atSpeed ∧ (s.boothAt 5).state = .changeoverPending ∧
      (s.boothAt 5).gap = true) := by decide +kernel

theorem witness_IntermissionRunsToTheNextReel :
    (let s := roomy 2 (booth .running (some 5) (some (.intermission 600)) ⟨.onScreen, some 5⟩
      ⟨.threaded, some 7⟩)
     LineRoom 2 (s.lineAt 5) ∧ (s.boothAt 5).late = false ∧
      (projOf (s.boothAt 5) .a).state = .onScreen ∧ (s.boothAt 5).current = some 5 ∧
      (s.boothAt 5).latched = some (.intermission 600)) ∧
    (let s := roomy 1 { booth .intermission (some 6) none ⟨.tailing, some 5⟩ ⟨.threaded, some 7⟩ with
      intermission := some 12, preRoll := some 0 }
     LineRoom 1 (s.lineAt 5) ∧ (s.boothAt 5).state = .intermission ∧
      (s.boothAt 5).preRoll = some 0 ∧ (s.boothAt 5).current = some 6 ∧
      entryAt (s.programmeAt 5) (6 + 1) = some (.reel 201 ⟨6, 7372⟩) ∧
      threadedWith (s.boothAt 5) (6 + 1) = some .b) ∧
    (let s := roomy 2 { booth .intermission (some 6) (some (.reel 201 ⟨6, 7372⟩))
      ⟨.atSpeed, some 7⟩ ⟨.spent, some 5⟩ with intermission := some 0 }
     LineRoom 2 (s.lineAt 5) ∧ (s.boothAt 5).state = .intermission ∧
      (s.boothAt 5).preRoll = none ∧ (s.boothAt 5).intermission = some 0 ∧
      (s.boothAt 5).current = some 6 ∧ (s.boothAt 5).latched = some (.reel 201 ⟨6, 7372⟩) ∧
      (s.boothAt 5).projA = ⟨.atSpeed, some (6 + 1)⟩) ∧
    (let s := roomy 2 { booth .intermission (some 6) (some (.reel 201 ⟨6, 7372⟩))
      ⟨.spent, some 5⟩ ⟨.starting, some 7⟩ with intermission := some 0 }
     (s.lineAt 5).downReport = none ∧ (s.boothAt 5).state = .intermission ∧
      (s.boothAt 5).preRoll = none ∧ (s.boothAt 5).intermission = some 0 ∧
      (s.boothAt 5).projA.state ≠ .atSpeed ∧ (s.boothAt 5).projB.state ≠ .atSpeed) := by
  decide +kernel

/-- The intermission expiry with projector B at speed. -/
theorem witness_IntermissionRunsToTheNextReel_b :
    let s := roomy 2 { booth .intermission (some 6) (some (.reel 201 ⟨6, 7372⟩))
      ⟨.spent, some 5⟩ ⟨.atSpeed, some 7⟩ with intermission := some 0 }
    LineRoom 2 (s.lineAt 5) ∧ (s.boothAt 5).preRoll = none ∧ (s.boothAt 5).intermission = some 0 ∧
      (s.boothAt 5).latched = some (.reel 201 ⟨6, 7372⟩) ∧
      projOf (s.boothAt 5) .b = ⟨.atSpeed, some (6 + 1)⟩ ∧ (s.boothAt 5).projA.state ≠ .atSpeed := by
  decide +kernel

/-- A count above 0, a pre-roll with no reel threaded, and the MOTOR_UP of a late start. -/
theorem witness_IntermissionRunsToTheNextReel_late :
    ((some 588 : Option Nat) ≠ some 0 ∧ (none : Option Nat) ≠ some 0) ∧
    (let s := roomy 1 { booth .intermission (some 6) none ⟨.tailing, some 5⟩ ⟨.empty, none⟩ with
      intermission := some 12, preRoll := some 0 }
     (s.lineAt 5).downReport = none ∧ (s.boothAt 5).state = .intermission ∧
      (s.boothAt 5).preRoll = some 0 ∧ (s.boothAt 5).current = some 6 ∧
      threadedWith (s.boothAt 5) (6 + 1) = none) ∧
    (let s := roomy 2 (booth .lateStart (some 6) (some (.reel 201 ⟨6, 7372⟩)) ⟨.spent, some 5⟩
      ⟨.starting, some 7⟩)
     LineRoom 2 (s.lineAt 5) ∧ (s.boothAt 5).state = .lateStart ∧ (s.boothAt 5).current = some 6 ∧
      (s.boothAt 5).latched = some (.reel 201 ⟨6, 7372⟩) ∧
      projOf (s.boothAt 5) .b = ⟨.starting, some (6 + 1)⟩) := by decide +kernel

/-! ### The Booth Line Ports -/

theorem witness_LinesCarryOneCommandAtATime :
    let f : InFlight := ⟨.motor .a true, 255, 0, 250⟩
    let s := State.reset.setLine 5 (busyLine 7)
    let e := State.reset.setLine 0 { busyLine 0 with staged := some 4095 }
    ((s.lineAt 5).up = true ∧ (s.lineAt 5).inFlight = some f ∧ f.number ≤ 255 ∧
      (s.lineAt 5).queue = .announceKey true :: List.replicate 6 (.announceKey true)) ∧
    ((e.lineAt 0).up = true ∧ (e.lineAt 0).inFlight = some f ∧ (e.lineAt 0).queue = []) ∧
    f.number ≠ 0 ∧ f.retry = 0 ∧
    ((e.lineAt 0).queue.length < 7 ∧ (State.reset.lineAt 0).up = false ∧
      7 ≤ (s.lineAt 5).queue.length) := by decide +kernel

theorem witness_LineDownHaltsTheBooth :
    (let f : InFlight := ⟨.motor .a true, 255, 1, 250⟩
     let s := show' 5 (booth .running (some 3) none ⟨.onScreen, some 3⟩ ⟨.starting, some 4⟩) feature
      { busyLine 7 with inFlight := some f }
     (s.lineAt 5).inFlight = some f ∧ f.retry = 1 ∧ (s.boothAt 5).state = .running) ∧
    ((State.reset.lineAt 5).up = false ∧ (State.reset.lineAt 5).inFlight = none ∧
      (State.reset.lineAt 5).queue = []) ∧
    ((1 ≤ 999 ∧ 999 ≤ 999 ∧ 7 ≤ 7 ∧ 8191 ≤ 8191) ∧ 255 ≤ 255) ∧
    (let s := show' 5 (booth .ready none none ⟨.threaded, some 1⟩ ProjCtx.fresh) feature (busyLine 7)
     (s.lineAt 5).up = true ∧ runsShow (s.boothAt 5).state = false ∧
      (s.boothAt 5).state = .ready ∧ threadedWith (s.boothAt 5) 1 = some .a ∧
      7 ≤ (s.lineAt 5).queue.length) ∧
    ((edited.lineAt 1).up = true ∧ runsShow (edited.boothAt 1).state = true) ∧
    (let s := show' 5 (booth .ended (some 10) none ⟨.tailing, some 9⟩ ProjCtx.fresh) feature
      { LineCtx.fresh with downReport := some .channel }
     (s.lineAt 5).up = false ∧ runsShow (s.boothAt 5).state = false) ∧
    (let s := show' 5 (booth .intermission (some 6) none ⟨.tailing, some 5⟩ ProjCtx.fresh) feature
      { busyLine 6 with downReport := some .channel }
     (s.lineAt 5).downReport ≠ none ∧ (s.lineAt 5).queue.length < 7 ∧
      runsShow (s.boothAt 5).state = true) ∧
    ((edited.lineAt 1).up = true ∧ (edited.lineAt 1).downReport = none) := by decide +kernel

/-! ### Level arithmetic and the Channel Controller -/

theorem witness_LevelWordsNormaliseCompareAndFix : (7 ≤ 7 ∧ 8191 ≤ 8191) ∧
    lawfulWord ⟨7, 8191⟩ = true ∧ lawfulWord ⟨0, 2048⟩ = true ∧ lawfulWord ⟨0, 0⟩ = true := by
  decide +kernel

theorem witness_ProductsAndQuotientsAreTruncated :
    (lawfulWord ⟨7, 8191⟩ = true ∧ multiply .flush ⟨7, 8191⟩ ⟨7, 8191⟩ = (⟨7, 8191⟩, some .OVER)) ∧
    (multiply .floor ⟨0, 2048⟩ ⟨0, 2048⟩ = (⟨0, 2048⟩, some .UNDER)) ∧
    ((⟨0, 2048⟩ : LevelWord) ≠ trueZero) := by decide +kernel

theorem witness_ChannelWritesEvaluate : (7 ≤ 7 ∧ 8191 ≤ 8191 ∧ normalise ⟨7, 8191⟩ = (⟨7, 8191⟩, none)) ∧
    (normalise ⟨0, 2047⟩ = (⟨0, 0⟩, some .LOSS)) ∧ compareLevels ⟨7, 8191⟩ ⟨0, 0⟩ = .gt ∧
    compareLevels ⟨7, 8191⟩ ⟨7, 8191⟩ ≠ .gt := by decide +kernel

/-- Every line UP, with room for one command. -/
def allBusy (s : State) : State := { s with lines := Vector.replicate 6 (busyLine 6) }

theorem witness_AnnouncementsKeyAndDuck :
    (∀ l : Lot, (64 : Nat).testBit l.val = false) ∧ (∃ l : Lot, (32 : Nat).testBit l.val = true) ∧
    (∀ l : Lot, ((allBusy State.reset).lineAt l).queue.length < 7) ∧
    (∀ l : Lot, (State.reset.lineAt l).up = false) ∧
    (State.reset.channelAt 5).announcing = false ∧
    (let s := State.reset.setChannel 5 { ChannelCtx.fresh with
        announcing := true, announceDeadline := some 0 }
     (s.channelAt 5).announcing = true ∧ (s.channelAt 5).announceDeadline = some 0) ∧
    (let s := State.reset.setChannel 5 { ChannelCtx.fresh with
        announcing := true, announceDeadline := some 600 }
     (s.channelAt 5).announceDeadline ≠ some 0) := by decide +kernel

theorem witness_ProbesCorrectAndConditionsClear :
    let s := (soundLot .projB).setLine 2 (busyLine 7)
    ((s.lineAt 2).up = true ∧ (s.channelAt 2).autoLevel = true ∧ (s.channelAt 2).source = .projB ∧
      (s.channelAt 2).announcing = false ∧ normalise ⟨7, 0⟩ = (⟨0, 0⟩, none) ∧
      normalise ⟨7, 8191⟩ = (⟨7, 8191⟩, none)) ∧
    ((edited.lineAt 1).up = true ∧ (edited.channelAt 1).autoLevel = false) := by decide +kernel

/-! ### The Order Table -/

theorem witness_OrderReadsAndPricesAnswerTheTables : (4 < 5 ∧ (0 : Nat) = 0) ∧
    (1 ≤ 127 ∧ 127 ≤ 127) ∧ (kitchen.unitAt serviceLoop ((3 : Fin 4).val + 7)).pending = none := by
  decide +kernel

theorem witness_DraftsAreKeyedCancelledAndTimedOut :
    let s := keyed .draft
    let o := order .draft (some 215) 2 1840 700 0 none
    ((s.stallAt 0 88).state = .occupied ∧ (s.lotAt 0).window ≠ .closed ∧
      (s.priceAt 12).listed = true ∧ (s.priceAt 12).available = true ∧ 1 ≤ 9 ∧ 9 ≤ 9 ∧
      (s.stallAt 0 88).draft = some 61 ∧ s.orderAt 61 = some o ∧ o.lines.length < 8 ∧
      linesTotal o.lines + 9 * (s.priceAt 12).price ≤ 65535) ∧
    (let u := keyed .placed
     (u.stallAt 0 88).draft = none ∧ u.orders.length < 512 ∧ 9 * (u.priceAt 12).price ≤ 65535 ∧
      (u.stallAt 0 88).state = .occupied) ∧
    draftOf State.reset (State.reset.stallAt 0 1) = none ∧
    (s.olp.session ≠ .closing ∧ o.state = .draft ∧ o.draftDeadline = some 0 ∧ o.tag = some 215 ∧
      stallOfTag s 215 = some (0, 88)) ∧
    (s.orders.length < 512 ∧ 1 ≤ s.olp.orderSeq ∧ s.olp.orderSeq ≤ 999 ∧ nextOrderNumber s = 62) ∧
    s.orderAt 62 = none := by decide +kernel

/-- 512 orders fill the table: the boundary of KEY_LINE's last test. -/
theorem witness_orders_bound : ¬(512 ≤ (keyed .draft).orders.length) := by decide +kernel

theorem witness_PlacementsEnterTheKitchen :
    let s := keyed .draft
    let o := order .draft (some 215) 2 1840 700 0 none
    ((State.reset.stallAt 5 384).state ≠ .occupied) ∧
    (let c := s.setLot 0 { s.lotAt 0 with window := .closed }
     (c.stallAt 0 88).state = .occupied ∧ draftOf c (c.stallAt 0 88) ≠ none ∧
      (c.lotAt 0).window = .closed) ∧
    ((s.stallAt 0 88).state = .occupied ∧ (s.stallAt 0 88).draft = some 61 ∧ s.orderAt 61 = some o ∧
      (s.lotAt 0).window ≠ .closed ∧ o.tag = some 215 ∧ (s.stallAt 0 88).tag = some 215 ∧
      stallOfTag s 215 = some (0, 88)) ∧
    (s.passAt 215 ≠ none ∧ 7 ≤ 7 ∧ ([⟨12, 9⟩] : List LineParam) ≠ [] ∧
      ([⟨12, 9⟩] : List LineParam).length ≤ 8 ∧ firstBadLine s 1 0 [⟨12, 9⟩] = none ∧
      s.orders.length < 512) ∧
    (1 ≤ 16 ∧ 16 ≤ 16 ∧ (s.unitAt serviceLoop 11).pending = none ∧
      s.passAt 215 = some (pass 0 (some 88) 600 2) ∧
      (pass 0 (some 88) 600 2).state = .parked ∧ (3 : Nat) = (s.lotAt 0).handLevel ∧ 1 ≤ 3 ∧
      (s.lotAt 0).window ≠ .rush) ∧
    (firstBadLine s 1 0 [⟨12, 9⟩] = none ∧ (9 : Nat) < 10 ∧
      firstBadLine s 1 0 [⟨12, 9⟩, ⟨12, 10⟩, ⟨12, 1⟩] = some (2, .outOfRange)) := by decide +kernel

/-- A PLACE without a tag names no pass that could be gone. -/
theorem witness_PlacementsEnterTheKitchen_counter (s : State) :
    ∀ t, (none : Option Nat) = some t → s.passAt t ≠ none := by
  intro t h
  cases h

theorem witness_OrdersAreDeliveredPaidAndGivenUp :
    let s := keyed .ready
    let o := order .ready (some 215) 2 1840 700 0 none
    let c := State.reset.setOrder 999 (order .ready none 7 1 65535 0 none)
    (s.olp.session ≠ .closing ∧ s.orderAt 61 = some o ∧ o.state = .ready ∧ o.tag = some 215 ∧
      s.passAt 215 = some (pass 0 (some 88) 600 2) ∧ (pass 0 (some 88) 600 2).state = .parked ∧
      (pass 0 (some 88) 600 2).stall = some 88 ∧ 1 ≤ 16 ∧ 16 ≤ 16 ∧
      (s.unitAt serviceLoop 11).pending = none) ∧
    (c.olp.session ≠ .closing ∧ c.orderAt 999 = some (order .ready none 7 1 65535 0 none) ∧
      c.orderAt 998 = none) ∧
    (let u := State.reset.setOrder 1 (order .unclaimed (some 1) 7 1 0 0 none)
     u.orderAt 1 = some (order .unclaimed (some 1) 7 1 0 0 none) ∧
      (order .unclaimed (some 1) 7 1 0 0 none).station = none ∧
      (u.unitAt serviceLoop ((3 : Fin 4).val + 7)).pending = none) ∧
    ((order .inPrep none 7 1 0 0 (some 4)).state = .inPrep) ∧
    (o.state ≠ .inPrep ∧ o.state ≠ .unclaimed) ∧
    (let e := c.setOlp { c.olp with session := .closing }
     e.olp.session = .closing ∧ e.passes = [] ∧
      e.orderAt 999 = some (order .ready none 7 1 65535 0 none) ∧ (∀ kv ∈ e.orders, kv.1 = 999) ∧
      (e.setOrder 1 o).orderAt 1 ≠ none) := by decide +kernel

/-! ### The Kitchen Dispatcher -/

theorem witness_TakeReadyAndRemakeMoveOrders :
    let o := order .placed none 7 1 0 0 none
    let s := { State.reset.setOrder 1 o with queue := [1] }
    ((0 : Nat) = 0 ∧ 4 < 5) ∧ ((kitchen.unitAt serviceLoop 7).pending = none) ∧
    ((s.stationAt 3).stack.length < 3 ∧ s.queue = 1 :: [] ∧ s.orderAt 1 = some o ∧
      o.level = some 7 ∧ (s.stationAt 3).baseFloor < 7 ∧ (s.stationAt 3).stack.head? = none) ∧
    (kitchen.orderAt 999 = none ∧ (kitchen.orderAt 301).map (fun x => x.station) = some none) ∧
    (kitchen.orderAt 310 = some (order .inPrep none 3 2110 0 0 (some 1)) ∧
      (kitchen.stationAt 0).stack = 310 :: [] ∧ (kitchen.stationAt 1).stack.head? ≠ some 310) ∧
    (kitchen.orderAt 290 = some (order .ready none 5 2050 0 0 none)) := by decide +kernel

theorem witness_LevelsRequeueAndAgingReorderTheQueue :
    (7 < 8 ∧ 7 ≤ 7 ∧ aging.orderAt 999 = none) ∧
    (aging.orderAt 405 = some (order .placed none 1 3010 0 71990 none)) ∧
    (kitchen.orderAt 290 = some (order .ready none 5 2050 0 0 none)) ∧ ((0 : Nat) = 0 ∧ 4 < 5) ∧
    queueOrdered aging ∧ aging.agingCount = 0 ∧ kitchen.agingCount ≠ 0 := by decide +kernel

end Sys2Proof.Tests
end

section
/-! SUPPORT. Post reports about a stall (R10, R11, R51, R184): how a report within range reaches its
owner, what a stall record becomes by each sensor report, and the statement about both reports. -/

namespace Sys2Proof.Proofs

open Sys2Proof Sys2Proof.Machine Sys2Proof.Laws

/-! ## Requests about a stall within range -/

/-- R5, R20: a lot and a stall number within range reach the owner. -/
theorem withStall_lotNumber (l : Lot) {n : Nat} (h1 : 1 ≤ n) (h2 : n ≤ 384)
    (owner : Lot → Nat → State → State × Answer) (s : State) :
    withStall (lotNumber l) n owner s = owner l n s := by
  rw [withStall, stall?_lotNumber l h1 h2]

/-- R51: the stall's own post gets no response. -/
theorem postRequest_post (l : Lot) {n : Nat} (h1 : 1 ≤ n) (h2 : n ≤ 384)
    (owner : Lot → Nat → State → State × Answer) (s : State) :
    postRequest .post (lotNumber l) n owner s = (owner l n s).1 := by
  rw [postRequest, withStall_lotNumber l h1 h2]

/-- R184: the office gets the owner's answer, besides what the report does. -/
theorem postRequest_office (q : Byte) (l : Lot) {n : Nat} (h1 : 1 ≤ n) (h2 : n ≤ 384)
    (owner : Lot → Nat → State → State × Answer) (s : State) :
    postRequest (.office q) (lotNumber l) n owner s =
      giveOffice q (owner l n s).2 (owner l n s).1 := by
  rw [postRequest, officeStep, withStall_lotNumber l h1 h2]

/-- A write to one stall leaves every other stall as it is. -/
theorem stallAt_setStall_other {l k : Lot} {n m : Nat} (h : ¬(k = l ∧ m = n)) (x : StallRec)
    (s : State) : (s.setStall l n x).stallAt k m = s.stallAt k m := by
  apply stallAt_setStall_ne
  rintro ⟨⟩
  exact h ⟨rfl, rfl⟩

/-! ## The stall record under a sensor report, by its state -/

/-- R10: a car arrives on a FREE stall. -/
theorem sensorPresentStall_free {st : StallRec} (h : st.state = .free) :
    sensorPresentStall st = { st with state := .arrived } := by
  simp only [sensorPresentStall, h]

/-- R10: the car of a VACATED stall is back within the grace. -/
theorem sensorPresentStall_vacated {st : StallRec} (h : st.state = .vacated) :
    sensorPresentStall st = { st with state := .occupied, grace := none } := by
  simp only [sensorPresentStall, h]

/-- R10: the states in which SENSOR_PRESENT tells nothing new. -/
theorem sensorPresentStall_unchanged {st : StallRec}
    (h : st.state = .arrived ∨ st.state = .occupied ∨ st.state = .outOfService) :
    sensorPresentStall st = st := by
  obtain h | h | h := h <;> simp only [sensorPresentStall, h]

/-- R11: the car leaves an ARRIVED stall. -/
theorem sensorGoneStall_arrived {st : StallRec} (grace : Nat) (h : st.state = .arrived) :
    sensorGoneStall grace st = { st with state := .free } := by
  simp only [sensorGoneStall, h]

/-- R11: the car leaves an OCCUPIED stall, and its grace begins. -/
theorem sensorGoneStall_occupied {st : StallRec} (grace : Nat) (h : st.state = .occupied) :
    sensorGoneStall grace st = { st with state := .vacated, grace := some grace } := by
  simp only [sensorGoneStall, h]

/-- R11: the states in which SENSOR_GONE tells nothing new; the running grace of a VACATED stall
is kept. -/
theorem sensorGoneStall_unchanged {st : StallRec} (grace : Nat)
    (h : st.state = .free ∨ st.state = .vacated ∨ st.state = .outOfService) :
    sensorGoneStall grace st = st := by
  obtain h | h | h := h <;> simp only [sensorGoneStall, h]

/-! ## The sensor reports as steps -/

/-- R10: SENSOR_PRESENT of a stall's own post rewrites that stall alone. -/
theorem exec_sensorPresent_post (l : Lot) {n : Nat} (h1 : 1 ≤ n) (h2 : n ≤ 384) (s : State) :
    exec (.sensorPresent .post (lotNumber l) n) s =
      .next (s.setStall l n (sensorPresentStall (s.stallAt l n))) :=
  congrArg Host.Outcome.next (postRequest_post l h1 h2 ownSensorPresent s)

/-- R10, R184: SENSOR_PRESENT from the office does the same and is answered OK without data. -/
theorem exec_sensorPresent_office (q : Byte) (l : Lot) {n : Nat} (h1 : 1 ≤ n) (h2 : n ≤ 384)
    (s : State) :
    exec (.sensorPresent (.office q) (lotNumber l) n) s = .next (giveOffice q (okWith .none)
      (s.setStall l n (sensorPresentStall (s.stallAt l n)))) :=
  congrArg Host.Outcome.next (postRequest_office q l h1 h2 ownSensorPresent s)

/-- R11: SENSOR_GONE of a stall's own post rewrites that stall alone, with the vacate grace in
force. -/
theorem exec_sensorGone_post (l : Lot) {n : Nat} (h1 : 1 ≤ n) (h2 : n ≤ 384) (s : State) :
    exec (.sensorGone .post (lotNumber l) n) s =
      .next (s.setStall l n (sensorGoneStall s.vacateGrace (s.stallAt l n))) :=
  congrArg Host.Outcome.next (postRequest_post l h1 h2 ownSensorGone s)

/-- R11, R184: SENSOR_GONE from the office does the same and is answered OK without data. -/
theorem exec_sensorGone_office (q : Byte) (l : Lot) {n : Nat} (h1 : 1 ≤ n) (h2 : n ≤ 384)
    (s : State) :
    exec (.sensorGone (.office q) (lotNumber l) n) s = .next (giveOffice q (okWith .none)
      (s.setStall l n (sensorGoneStall s.vacateGrace (s.stallAt l n)))) :=
  congrArg Host.Outcome.next (postRequest_office q l h1 h2 ownSensorGone s)

/-- Settles O21: each report is one write to the reporting stall (`exec_sensorPresent_post`,
`exec_sensorGone_post`), whose new record is told by the stall's state. -/
theorem sensorReportsMoveTheStallByItsState : Obligations.SensorReportsMoveTheStallByItsState := by
  intro q l n s h1 h2
  constructor
  · refine ⟨_, exec_sensorPresent_post l h1 h2 s, ⟨_, exec_sensorPresent_office q l h1 h2 s⟩,
      ?_, fun k m other => stallAt_setStall_other other _ s, rfl⟩
    rw [stallAt_setStall]
    cases state : (s.stallAt l n).state with
    | free => exact sensorPresentStall_free state
    | arrived => exact sensorPresentStall_unchanged (.inl state)
    | occupied => exact sensorPresentStall_unchanged (.inr (.inl state))
    | vacated => exact sensorPresentStall_vacated state
    | outOfService => exact sensorPresentStall_unchanged (.inr (.inr state))
  · refine ⟨_, exec_sensorGone_post l h1 h2 s, ⟨_, exec_sensorGone_office q l h1 h2 s⟩, ?_,
      fun k m other => stallAt_setStall_other other _ s, rfl⟩
    rw [stallAt_setStall]
    cases state : (s.stallAt l n).state with
    | free => exact sensorGoneStall_unchanged _ (.inl state)
    | arrived => exact sensorGoneStall_arrived _ state
    | occupied => exact sensorGoneStall_occupied _ state
    | vacated => exact sensorGoneStall_unchanged _ (.inr (.inl state))
    | outOfService => exact sensorGoneStall_unchanged _ (.inr (.inr state))

end Sys2Proof.Proofs
end

section
/-! SUPPORT. TAKE, READY and REMAKE (R171, R173, R174): how a kitchen request of the office or of a station
unit is answered, the verdict of each request's tests, the state each leaves when it is taken, and the
statement about the three. -/

namespace Sys2Proof.Proofs

open Sys2Proof Sys2Proof.Machine Sys2Proof.Safety Sys2Proof.Laws

/-! ## Kitchen requests and their answers -/

/-- R60: a unit whose pending response slot is empty gets the owner's answer there. -/
theorem unitStep_slotEmpty {a : Nat} {s : State} (slotEmpty : (s.unitAt serviceLoop a).pending = none)
    (g : Bool) (h : Option Nat) (owner : State → State × Answer) :
    unitStep a g h owner s = slotted a g h (owner s).2 (owner s).1 := by
  simp only [unitStep, slotEmpty, Option.isSome_none, Bool.false_eq_true, if_false]

/-- R60: a station's unit, with room in its slot, gets there what its request is answered. -/
theorem kitchenRequest_station {k : Fin 4} {s : State}
    (slotEmpty : (s.unitAt serviceLoop (k.val + 7)).pending = none) (g : Bool)
    (fromOffice : State → State × Answer) (fromStation : Fin 4 → State → State × Answer) :
    kitchenRequest (.station (k.val + 1) g) fromOffice fromStation s =
      slotted (k.val + 7) g none (fromStation k s).2 (fromStation k s).1 := by
  rw [kitchenRequest, station?_number]
  exact unitStep_slotEmpty slotEmpty g none (fromStation k)

/-- A station's own number reaches its owner's step. -/
theorem withStation_number (k : Fin 4) (owner : Fin 4 → State → State × Answer) (s : State) :
    withStation (k.val + 1) owner s = owner k s := by
  rw [withStation, station?_number]

/-- A number outside 1 to 4 names no station. -/
theorem station?_none {n : Nat} (h : n = 0 ∨ 4 < n) : station? n = none := by
  rw [station?, dif_neg (by omega)]

/-- A station number outside 1 to 4 is refused. -/
theorem withStation_outOfRange {n : Nat} (h : n = 0 ∨ 4 < n) (owner : Fin 4 → State → State × Answer)
    (s : State) : withStation n owner s = (s, refuse .outOfRange) := by
  rw [withStation, station?_none h]

/-- A number that names a station is that station's own. -/
theorem eq_number_of_station?_eq {n : Nat} {k : Fin 4} (h : station? n = some k) : n = k.val + 1 := by
  unfold station? at h
  split at h
  · cases h
    dsimp only
    omega
  · cases h

section
variable {k : Fin 4} {n : Nat} {s t : State} {a : Answer}

/-- R171: TAKE from the office, as the owner's step does it. -/
theorem exec_take_office (q : Byte) (h : ownTake k s = (t, a)) :
    exec (.take (.office q) (k.val + 1)) s = .next (giveOffice q a t) := by
  change Host.Outcome.next (officeStep q (withStation (k.val + 1) ownTake) s) = _
  rw [officeStep, withStation_number, h]

/-- R171: TAKE from a station's unit, as the owner's step does it. -/
theorem exec_take_station (g : Bool) (x : Nat)
    (slotEmpty : (s.unitAt serviceLoop (k.val + 7)).pending = none) (h : ownTake k s = (t, a)) :
    exec (.take (.station (k.val + 1) g) x) s = .next (slotted (k.val + 7) g none a t) := by
  change Host.Outcome.next (kitchenRequest _ (withStation x ownTake) ownTake s) = _
  rw [kitchenRequest_station slotEmpty, h]

/-- R173: READY from the office, as the owner's step does it. -/
theorem exec_ready_office (q : Byte) (h : ownReadyOffice n s = (t, a)) :
    exec (.ready (.office q) n) s = .next (giveOffice q a t) := by
  change Host.Outcome.next (officeStep q (ownReadyOffice n) s) = _
  rw [officeStep, h]

/-- R173: READY from a station's unit, as the owner's step does it. -/
theorem exec_ready_station (g : Bool)
    (slotEmpty : (s.unitAt serviceLoop (k.val + 7)).pending = none)
    (h : ownReadyStation n k s = (t, a)) :
    exec (.ready (.station (k.val + 1) g) n) s = .next (slotted (k.val + 7) g none a t) := by
  change Host.Outcome.next (kitchenRequest _ (ownReadyOffice n) (ownReadyStation n) s) = _
  rw [kitchenRequest_station slotEmpty, h]

/-- R174: REMAKE from the office, as the owner's step does it. -/
theorem exec_remake_office (q : Byte) (h : ownRemake n s = (t, a)) :
    exec (.remake (.office q) n) s = .next (giveOffice q a t) := by
  change Host.Outcome.next (officeStep q (ownRemake n) s) = _
  rw [officeStep, h]

/-- R174: REMAKE from a station's unit, as the owner's step does it. -/
theorem exec_remake_station (g : Bool)
    (slotEmpty : (s.unitAt serviceLoop (k.val + 7)).pending = none) (h : ownRemake n s = (t, a)) :
    exec (.remake (.station (k.val + 1) g) n) s = .next (slotted (k.val + 7) g none a t) := by
  change Host.Outcome.next (kitchenRequest _ (ownRemake n) (fun _ => ownRemake n) s) = _
  rw [kitchenRequest_station slotEmpty, h]

end

/-- R158: relamping a state that has the stalls and passes of `s` rewrites the lamp of the tag's stall
in `s`, by the orders it now holds. -/
theorem relamp_relamped {s t : State} (stalls : t.stalls = s.stalls) (passes : t.passes = s.passes)
    (tag : Option Nat) : Relamped (tag.bind (stallOfTag s)) s (relamp tag t) := by
  intro l n
  have same : t.stallAt l n = s.stallAt l n := by rw [State.stallAt, State.stallAt, stalls]
  have sameStall : stallOfTag t = stallOfTag s := funext (stallOfTag_congr passes)
  rw [relamp_stallAt, relamp_orders, same, sameStall]

/-! ## TAKE -/

/-- The level of an order of the table. -/
theorem levelIn_of_orderAt {s : State} {n : Nat} {o : OrderRec} (h : s.orderAt n = some o) :
    levelIn s.orders n = o.level.getD 0 := by
  rw [State.orderAt] at h
  rw [levelIn, h]

/-- R169: a station's floor is below a level that its base floor and the top of its stack are below. -/
theorem stationFloor_lt {s : State} {c : StationCtx} {level : Nat} (base : c.baseFloor < level)
    (top : ∀ m, c.stack.head? = some m → levelIn s.orders m < level) : stationFloor s c < level := by
  unfold stationFloor
  split
  · exact base
  · next m rest stack => exact top m (by rw [stack, List.head?_cons])

/-- R171: the first of TAKE's tests that fails at station `k`, OK where none does. -/
def takeVerdict (k : Fin 4) (s : State) : Status :=
  if 3 ≤ (s.stationAt k).stack.length then .stationFull
  else match s.queue with
    | [] => .nothingEligible
    | n :: _ =>
      if s.orderAt n = none then .nothingEligible
      else if levelIn s.orders n ≤ stationFloor s (s.stationAt k) then .nothingEligible
      else if levelIn s.orders n ≤ (s.stationAt k).baseFloor then .nothingEligible
      else .ok

/-- R171: a TAKE that fails a test is refused for that test and changes nothing. -/
theorem ownTake_refused {k : Fin 4} {s : State} (h : takeVerdict k s ≠ .ok) :
    ownTake k s = (s, refuse (takeVerdict k s)) := by
  unfold takeVerdict ownTake Config.stackDepth at *
  by_cases full : 3 ≤ (s.stationAt k).stack.length
  · simp only [full, if_true]
  cases queue : s.queue with
  | nil => simp only [full, if_false]
  | cons n rest =>
    cases order : s.orderAt n with
    | none => simp only [full, order, if_false, if_true]
    | some o =>
      simp only [full, queue, order, levelIn_of_orderAt order, if_false, reduceCtorEq] at h ⊢
      split
      · rfl
      split
      · rfl
      · next notFloor notBase => exact absurd (by simp only [notFloor, notBase, if_false]) h

/-- R171: the head `n` of the queue, with `rest` behind it, is in preparation on top of the stack of
station `k`. -/
def takenOnto (k : Fin 4) (n : Nat) (rest : List Nat) (o : OrderRec) (s : State) : State :=
  relamp o.tag (({ s with queue := rest }.setOrder n
      { o with state := .inPrep, station := some (k.val + 1) }).setStation k
    { s.stationAt k with stack := n :: (s.stationAt k).stack })

/-- R171: a TAKE that passes its tests. -/
theorem ownTake_taken {k : Fin 4} {n level : Nat} {rest : List Nat} {o : OrderRec} {s : State}
    (room : (s.stationAt k).stack.length < 3) (queue : s.queue = n :: rest)
    (order : s.orderAt n = some o) (hasLevel : o.level = some level)
    (aboveBase : (s.stationAt k).baseFloor < level)
    (aboveTop : ∀ m, (s.stationAt k).stack.head? = some m → levelIn s.orders m < level) :
    ownTake k s = (takenOnto k n rest o s,
      okWith (.taken n (some level) o.tag (stallOfOrder s o) (o.lines.map takenLine))) := by
  have aboveFloor := stationFloor_lt aboveBase aboveTop
  simp only [ownTake, takenOnto, Config.stackDepth, Nat.not_le.2 room, queue, order, hasLevel,
    Option.getD_some, Nat.not_le.2 aboveFloor, Nat.not_le.2 aboveBase, if_false]

/-! ## READY -/

/-- R173: READY for an order that is not on top of the station's stack is refused. -/
theorem readyAt_notTop {k : Fin 4} {n : Nat} {s : State} (h : (s.stationAt k).stack.head? ≠ some n)
    (o : OrderRec) : readyAt k n o s = (s, refuse .notTop) := if_neg h

/-- R173: a station's READY for an order that is not in the table is refused. -/
theorem ownReadyStation_noSuch {n : Nat} {s : State} (h : s.orderAt n = none) (k : Fin 4) :
    ownReadyStation n k s = (s, refuse .noSuch) := by
  rw [ownReadyStation, h]

/-- R173: a station's READY acts for that station. -/
theorem ownReadyStation_of_orderAt {n : Nat} {s : State} {o : OrderRec} (h : s.orderAt n = some o)
    (k : Fin 4) : ownReadyStation n k s = readyAt k n o s := by
  rw [ownReadyStation, h]

/-- R173: the office's READY for an order that is not in the table is refused. -/
theorem ownReadyOffice_noSuch {n : Nat} {s : State} (h : s.orderAt n = none) :
    ownReadyOffice n s = (s, refuse .noSuch) := by
  rw [ownReadyOffice, h]

/-- R173: the office's READY acts for the station that the order is on. -/
theorem ownReadyOffice_of_station {n : Nat} {k : Fin 4} {s : State} {o : OrderRec}
    (h : s.orderAt n = some o) (station : o.station = some (k.val + 1)) :
    ownReadyOffice n s = readyAt k n o s := by
  simp only [ownReadyOffice, h, station, Option.bind_some, station?_number]

/-- R173: the office's READY for an order on no station's top is refused. -/
theorem ownReadyOffice_notTop {n : Nat} {s : State} {o : OrderRec} (h : s.orderAt n = some o)
    (notTop : ∀ k : Fin 4, o.station = some (k.val + 1) → (s.stationAt k).stack.head? ≠ some n) :
    ownReadyOffice n s = (s, refuse .notTop) := by
  cases onStation : o.station.bind station? with
  | none => simp only [ownReadyOffice, h, onStation]
  | some k =>
    obtain ⟨number, station, isStation⟩ := Option.bind_eq_some_iff.1 onStation
    rw [eq_number_of_station?_eq isStation] at station
    rw [ownReadyOffice_of_station h station, readyAt_notTop (notTop k station)]

/-- R173: the top of the stack of station `k` is popped, with `rest` below it, and marked: an order in
preparation is READY and lamped, an UNCLAIMED one only leaves the station. -/
def readiedFrom (k : Fin 4) (n : Nat) (rest : List Nat) (o : OrderRec) (s : State) : State :=
  relamp (if o.state = .inPrep then o.tag else none)
    ((s.setStation k { s.stationAt k with stack := rest }).setOrder n { o with
      state := if o.state = .inPrep then .ready else .unclaimed, station := none })

/-- R173: a READY for the order on top of the station's stack. -/
theorem readyAt_readied {k : Fin 4} {n : Nat} {rest : List Nat} {o : OrderRec} {s : State}
    (stack : (s.stationAt k).stack = n :: rest) (state : o.state = .inPrep ∨ o.state = .unclaimed) :
    readyAt k n o s = (readiedFrom k n rest o s,
      okWith (if o.state = .inPrep then .readied n .ready o.tag (stallOfOrder s o)
        else .readied n .unclaimed none none)) := by
  rw [readyAt, stack, List.head?_cons, if_pos rfl, markReady, readiedFrom, stack, List.tail_cons]
  obtain state | state := state
  · simp only [state, if_true, reduceCtorEq, if_false]
  · simp only [state, if_true, reduceCtorEq, if_false, relamp_none]

/-! ## REMAKE -/

/-- R174: REMAKE's tests of the order it names. -/
def remakeVerdict (n : Nat) (s : State) : Status :=
  match s.orderAt n with
  | none => .noSuch
  | some o => if o.state = .ready then .ok else .badState

/-- R174: a REMAKE that fails a test is refused for that test and changes nothing. -/
theorem ownRemake_refused {n : Nat} {s : State} (h : remakeVerdict n s ≠ .ok) :
    ownRemake n s = (s, refuse (remakeVerdict n s)) := by
  unfold remakeVerdict ownRemake at *
  cases order : s.orderAt n with
  | none => rfl
  | some o =>
    have notReady : o.state ≠ .ready := fun ready => h (by simp only [order, ready, if_true])
    simp only [notReady, ne_eq, not_false_eq_true, if_true, if_false]

/-- R174: the order is back in the queue at level 7 under the next placement sequence. -/
def remade (n : Nat) (o : OrderRec) (s : State) : State :=
  relamp o.tag (enterQueue n ((s.setOrder n { o with
    state := .placed, level := some 7, seq := some s.olp.placeSeq
    lastRaise := some s.olp.clock }).setOlp
      { s.olp with placeSeq := stepSequence Config.maxPlacement s.olp.placeSeq }))

/-- R174: a REMAKE of a READY order. -/
theorem ownRemake_ready {n : Nat} {o : OrderRec} {s : State} (order : s.orderAt n = some o)
    (ready : o.state = .ready) : ownRemake n s = (remade n o s, okWith .none) := by
  simp only [ownRemake, order, ready, ne_eq, not_true_eq_false, if_false]
  rfl

/-! ## What each leaves -/

/-- R171, R158: what a TAKE leaves. -/
theorem takenOnto_effect (k : Fin 4) (n : Nat) (rest : List Nat) (o : OrderRec) (s : State) :
    let t := takenOnto k n rest o s
    t.queue = rest ∧
      t.orderAt n = some { o with state := .inPrep, station := some (k.val + 1) } ∧
      (∀ m, m ≠ n → t.orderAt m = s.orderAt m) ∧
      t.stationAt k = { s.stationAt k with stack := n :: (s.stationAt k).stack } ∧
      (∀ j, j ≠ k → t.stationAt j = s.stationAt j) ∧
      Relamped (stallOfOrder s o) s t ∧
      t = { s with
        queue := t.queue, orders := t.orders, stations := t.stations, stalls := t.stalls } := by
  unfold takenOnto
  refine ⟨?_, ?_, fun m other => ?_, ?_, fun j other => ?_, relamp_relamped rfl rfl o.tag, ?_⟩
  · simp only [relamp_queue, setStation_queue, setOrder_queue]
  · simp only [relamp_orderAt, setStation_orderAt, orderAt_setOrder]
  · simp only [relamp_orderAt, setStation_orderAt, orderAt_setOrder_if, other.symm, if_false]
    rfl
  · simp only [relamp_stationAt, stationAt_setStation]
  · rw [relamp_stationAt, stationAt_setStation_ne _ other.symm]
    rfl
  · rw [relamp_rest]
    rfl

/-- R173, R158: what a READY leaves. -/
theorem readiedFrom_effect (k : Fin 4) (n : Nat) (rest : List Nat) (o : OrderRec) (s : State) :
    let t := readiedFrom k n rest o s
    t.orderAt n = some { o with
        state := if o.state = .inPrep then .ready else .unclaimed, station := none } ∧
      (∀ m, m ≠ n → t.orderAt m = s.orderAt m) ∧
      t.stationAt k = { s.stationAt k with stack := rest } ∧
      (∀ j, j ≠ k → t.stationAt j = s.stationAt j) ∧
      Relamped (if o.state = .inPrep then stallOfOrder s o else none) s t ∧
      t = { s with orders := t.orders, stations := t.stations, stalls := t.stalls } := by
  unfold readiedFrom
  refine ⟨?_, fun m other => ?_, ?_, fun j other => ?_, ?_, ?_⟩
  · simp only [relamp_orderAt, orderAt_setOrder]
  · simp only [relamp_orderAt, orderAt_setOrder_if, other.symm, if_false, setStation_orderAt]
  · simp only [relamp_stationAt, setOrder_stationAt, stationAt_setStation]
  · rw [relamp_stationAt, setOrder_stationAt, stationAt_setStation_ne _ other.symm]
  · have lamped : (if o.state = .inPrep then stallOfOrder s o else none) =
        (if o.state = .inPrep then o.tag else none).bind (stallOfTag s) := by
      split <;> rfl
    rw [lamped]
    exact relamp_relamped rfl rfl _
  · rw [relamp_rest]
    rfl

/-- R174, R158: what a REMAKE leaves. -/
theorem remade_effect (n : Nat) (o : OrderRec) (s : State) :
    let t := remade n o s
    t.orderAt n = some { o with
        state := .placed, level := some 7, seq := some s.olp.placeSeq
        lastRaise := some s.olp.clock } ∧
      (∀ m, m ≠ n → t.orderAt m = s.orderAt m) ∧
      t.queue = insertBy (queueBefore t.orders) n s.queue ∧
      t.olp = { s.olp with
        placeSeq := if 4294967295 ≤ s.olp.placeSeq then 1 else s.olp.placeSeq + 1 } ∧
      Relamped (stallOfOrder s o) s t ∧
      t = { s with olp := t.olp, orders := t.orders, queue := t.queue, stalls := t.stalls } := by
  unfold remade
  refine ⟨?_, fun m other => ?_, ?_, ?_, relamp_relamped rfl rfl o.tag, ?_⟩
  · rw [relamp_orderAt]
    exact orderAt_setOrder s n _
  · rw [relamp_orderAt]
    exact (orderAt_setOrder_if s n m _).trans (if_neg other.symm)
  · rw [relamp_queue, relamp_orders]
    rfl
  · rw [relamp_olp]
    rfl
  · rw [relamp_rest]
    rfl

/-- Settles O59: by `exec_…_office` and `exec_…_station` office and station unit get the answer of one
owner's step; a refused one leaves the state, and a taken one leaves the state that `takenOnto_effect`,
`readiedFrom_effect` or `remade_effect` describes. -/
theorem takeReadyAndRemakeMoveOrders : Obligations.TakeReadyAndRemakeMoveOrders := by
  refine ⟨?_, ?_, ?_, ?_, ?_, ?_, ?_, ?_⟩
  · intro q k s outside
    change Host.Outcome.next (officeStep q (withStation k ownTake) s) = _
    rw [officeStep, withStation_outOfRange outside]
  · intro q k x g s slotEmpty
    exact ⟨takeVerdict k s, fun fails => ⟨exec_take_office q (ownTake_refused fails),
      exec_take_station g x slotEmpty (ownTake_refused fails)⟩, rfl⟩
  · intro q k x n level rest g o s room queue order hasLevel aboveBase aboveTop slotEmpty
    have taken := ownTake_taken room queue order hasLevel aboveBase aboveTop
    exact ⟨_, ⟨_, rfl, exec_take_office q taken, exec_take_station g x slotEmpty taken⟩,
      takenOnto_effect k n rest o s⟩
  · intro q n s
    exact ⟨fun absent => exec_ready_office q (ownReadyOffice_noSuch absent),
      fun o order notTop => exec_ready_office q (ownReadyOffice_notTop order notTop)⟩
  · intro k n g o s slotEmpty
    refine ⟨fun absent => exec_ready_station g slotEmpty (ownReadyStation_noSuch absent k),
      fun order notTop => exec_ready_station g slotEmpty ?_⟩
    rw [ownReadyStation_of_orderAt order, readyAt_notTop notTop]
  · intro q k n rest g o s order station stack state slotEmpty
    have readied := readyAt_readied stack state
    exact ⟨_, ⟨_, rfl,
        exec_ready_office q ((ownReadyOffice_of_station order station).trans readied),
        exec_ready_station g slotEmpty ((ownReadyStation_of_orderAt order k).trans readied)⟩,
      readiedFrom_effect k n rest o s⟩
  · intro q k n g s slotEmpty
    exact ⟨remakeVerdict n s, fun fails => ⟨exec_remake_office q (ownRemake_refused fails),
      exec_remake_station g slotEmpty (ownRemake_refused fails)⟩, rfl⟩
  · intro q k n g o s order ready slotEmpty
    have remakes := ownRemake_ready order ready
    exact ⟨_, exec_remake_office q remakes, exec_remake_station g slotEmpty remakes,
      remade_effect n o s⟩

end Sys2Proof.Proofs
end
